-- ==== Sys2Proof/Word.lean ====
section
/-! DEFINITION. The block's word types (spec/00_scope.md section 5: a byte is 8 bits, a nibble 4; bit 0 is least
significant; every value is unsigned). -/

namespace Sys2Proof

/-- A byte: a bus byte, a command byte, a data byte. -/
abbrev Byte := BitVec 8

/-- A 4-bit nibble. -/
abbrev Nibble := BitVec 4

/-- A request word, 12 bits (R50). -/
abbrev ReqWord := BitVec 12

end Sys2Proof
end

