-- ==== Sys2Proof/Syntax.lean ====
section
/-! DEFINITION. The requests, one constructor per row of spec/opcode_table.json (spec/30_encoding.md R51). Operands
are the named fields of `arg`, each of its own width; reserved bits of `arg` are masked off at decode (R53) and have
no place here. -/

namespace Sys2Proof

/-- The sixteen rows of the opcode table: the thirteen requests and the three reserved operation codes. Operands
stand in the order of R59, from the highest bit to the lowest. -/
inductive Instr where
  /-- NIB: one nibble with explicit backlight and register select (R73). -/
  | nib (bl rs : Bool) (n : Nibble)
  /-- CMD: a command byte (R91). -/
  | cmd (b : Byte)
  /-- DAT: a data byte (R92). -/
  | dat (b : Byte)
  /-- CLR: clear display (R100). -/
  | clr
  /-- HOME: return home (R101). -/
  | home
  /-- ENTRY: entry-mode-set; direction flag `id`, shift flag `sh` (the spec's `s`) (R102). -/
  | entry (id sh : Bool)
  /-- DISP: display-control; display, cursor, blink (R103). -/
  | disp (d c b : Bool)
  /-- SHIFT: cursor-or-display-shift; display or cursor, right or left (R104). -/
  | shift (sc rl : Bool)
  /-- FUNC: function-set; bit mode, line count, font (R105). -/
  | func (dl n f : Bool)
  /-- CGADDR: set-CGRAM-address (R106). -/
  | cgaddr (a : BitVec 6)
  /-- DDADDR: set-DDRAM-address (R107). -/
  | ddaddr (a : BitVec 7)
  /-- INIT: the controller initialisation handshake (R120). -/
  | init
  /-- BL: set the backlight (R122). -/
  | bl (v : Bool)
  /-- Operation code 0xD, reserved (R54). -/
  | reservedD
  /-- Operation code 0xE, reserved (R54). -/
  | reservedE
  /-- Operation code 0xF, reserved (R54). -/
  | reservedF
  deriving DecidableEq, Repr

end Sys2Proof
end

