-- ==== Sys2Proof/Config.lean ====
section
/-! DEFINITION. What an instantiation of the block fixes (spec/00_scope.md section 4, R2), the host-side parameters,
and the free values: what the spec lets be any value (log entries 1, 3, 4, 9, 12). The spec's default values are
Machine/Defaults.lean. -/

namespace Sys2Proof

/-- What the Bus Transport does with an outstanding write when the block looks (R19): it has answered with success
(`bus_done`, `bus_fail` = 0), with failure and information (`bus_done`, `bus_fail` = 1, `bus_info`), or not yet. -/
inductive Answer where
  | notYet
  | ok
  | fail (info : Nat)
  deriving DecidableEq, Repr, Inhabited

/-- The parameters of the block (R2). Each is fixed when the block is instantiated; no step changes one. Names are
the spec's, in lower case. -/
structure Config where
  /-- `DEVADDR`: the device address every bus write carries (R14). -/
  devAddr : Nat
  /-- `ADDR_W`: the width of `DEVADDR` in bits. -/
  addrW : Nat
  /-- `BL_RESET`: `BL` after reset, OPEN (D6). -/
  blReset : Bool
  /-- `INFO_W`: the width of the failure information, OPEN (D13). -/
  infoW : Nat
  /-- `CLK_HZ`: the clock rate of a clocked build, OPEN (D1). -/
  clkHz : Nat
  /-- `BL_MASK`, `RS_MASK`, `EN_MASK`: the control bits of the bus byte (R3, D7). -/
  blMask : Byte
  rsMask : Byte
  enMask : Byte
  /-- `OP_CLEAR` and the other opcodes of the controller's commands (D8). -/
  opClear : Byte
  opHome : Byte
  opEntry : Byte
  opDisplay : Byte
  opShift : Byte
  opFunction : Byte
  opCgram : Byte
  opDdram : Byte
  /-- `F_ENTRY_ID` and the other flag masks of the commands (D8). -/
  fEntryId : Byte
  fEntryS : Byte
  fDispD : Byte
  fDispC : Byte
  fDispB : Byte
  fShiftSc : Byte
  fShiftRl : Byte
  fFuncDl : Byte
  fFuncN : Byte
  fFuncF : Byte
  /-- `INIT_RESET8`, `INIT_SET4`: the preliminary values of the initialisation (R120). -/
  initReset8 : Byte
  initSet4 : Byte
  /-- The timing constants, lower bounds in microseconds. -/
  tSettle : Nat
  tEnHigh : Nat
  tEnLow : Nat
  tInitStep : Nat
  tInitReset : Nat
  tInitDone : Nat
  /-- The two waits the host owes (R176, R177). -/
  tHomeClear : Nat
  tCursorMode : Nat
  deriving DecidableEq, Repr

/-- The host-side parameters, used by the host macros only (R131 to R144). -/
structure HostConfig where
  /-- `ROWS` as asked for; the session clamps it to 4 (R131). -/
  rows : Nat
  /-- `COLS`. -/
  cols : Nat
  /-- `BLINK_WITH_CURSOR`, OPEN (D21). -/
  blinkWithCursor : Bool
  /-- The character remap table: code point and controller code. It is not in the source (N14). -/
  remapTable : List (Nat × Byte)
  /-- Whether PUTC leaves the tracked column at `col + 1` (true) or at the old tracked column + 1 (false): not in
  the source (N22). -/
  putcFromGivenCol : Bool
  /-- Whether PUTC sets the tracked row: not in the source (N22). -/
  putcSetsRow : Bool
  deriving DecidableEq, Repr

/-- FREE VALUE (R71, U8): by how many microseconds the n-th delay outlasts its bound. -/
opaque Config.extraDelay : Nat → Nat

/-- FREE VALUE (R160, U4, U14): what the transport does at the n-th look once the script of answers in State has
ended. -/
opaque Config.transportAnswer : Nat → Answer

end Sys2Proof
end

