-- ==== Sys2Proof/WellFormed.lean ====
section
/-! DEFINITION. Well-formedness. A request has no ill-formed term: each operand has the width R51 gives it, and every
value of every field is accepted (R53, R57, R108). What can be ill-formed is a set of parameters (R3, R14, R2) and of
host parameters (R131); each check is named. -/

namespace Sys2Proof

/-- Every request is well formed: no operand is range-checked (R57), none is rejected (R108, R162). The widths of R51
are the types of the operands. -/
def Instr.wellFormed : Instr → Bool
  | .nib _ _ _ => true
  | .cmd _ => true
  | .dat _ => true
  | .clr => true
  | .home => true
  | .entry _ _ => true
  | .disp _ _ _ => true
  | .shift _ _ => true
  | .func _ _ _ => true
  | .cgaddr _ => true
  | .ddaddr _ => true
  | .init => true
  | .bl _ => true
  | .reservedD => true
  | .reservedE => true
  | .reservedF => true

/-- A control mask is one bit, and one of bits 3:0 (R3). -/
def isControlMask (m : Byte) : Bool :=
  m == 0x01 || m == 0x02 || m == 0x04 || m == 0x08

/-- R3: the three masks are control masks and pairwise different. -/
def Config.masksOk (c : Config) : Bool :=
  isControlMask c.blMask && isControlMask c.rsMask && isControlMask c.enMask
    && c.blMask != c.rsMask && c.blMask != c.enMask && c.rsMask != c.enMask

/-- R14: `DEVADDR` has `ADDR_W` bits. -/
def Config.addrOk (c : Config) : Bool := decide (c.devAddr < 2 ^ c.addrW)

/-- The command constants the source gives: `OP_DDRAM`, `INIT_RESET8`, `INIT_SET4` (section 4). -/
def Config.sourceBytesOk (c : Config) : Bool :=
  c.opDdram == 0x80 && c.initReset8 == 0x03 && c.initSet4 == 0x02

/-- The timing constants the source gives (section 4, R182); `T_INIT_STEP` is open. -/
def Config.timesOk (c : Config) : Bool :=
  c.tSettle == 200 && c.tEnHigh == 500 && c.tEnLow == 200 && c.tInitReset == 100000
    && c.tInitDone == 200000 && c.tHomeClear == 1000000 && c.tCursorMode == 50000

/-- A clocked build has a clock (R20). -/
def Config.clockOk (c : Config) : Bool := decide (0 < c.clkHz)

/-- The parameters are those of a block of the spec (log entry 12). -/
def Config.wellFormed (c : Config) : Bool :=
  c.masksOk && c.addrOk && c.sourceBytesOk && c.timesOk && c.clockOk

/-- The session has at least one row (R131: a row clamps to `ROWS - 1`). -/
def HostConfig.wellFormed (h : HostConfig) : Bool := decide (1 ≤ h.rows)

end Sys2Proof
end

