-- ==== Sys2Proof/Decode.lean ====
section
/-! DEFINITION. The request word: decoder, encoder, and the table of R51 as data (spec/30_encoding.md R50 to R54).
The decoder is total on 12-bit words and raises no fault (R52); a number that is no 12-bit word is rejected by name. -/

namespace Sys2Proof

/-- Bits 11:8, the operation code (R50). -/
def opOf (w : ReqWord) : BitVec 4 := w.extractLsb' 8 4

/-- Bits 7:0, the argument (R50). -/
def argOf (w : ReqWord) : Byte := w.extractLsb' 0 8

/-- The word with operation code `op` and argument `arg`: `op ‖ arg` (R50). -/
def mkWord (op : BitVec 4) (arg : Byte) : ReqWord := op ++ arg

/-- The request the row of `op` makes of `arg` (R51, R52). Each row reads its own fields, so reserved bits of `arg`
change nothing (R53). -/
def decodeFields (op : BitVec 4) (arg : Byte) : Instr :=
  match op.toNat with
  | 0x0 => .nib (arg.getLsbD 5) (arg.getLsbD 4) (arg.extractLsb' 0 4)
  | 0x1 => .cmd arg
  | 0x2 => .dat arg
  | 0x3 => .clr
  | 0x4 => .home
  | 0x5 => .entry (arg.getLsbD 1) (arg.getLsbD 0)
  | 0x6 => .disp (arg.getLsbD 2) (arg.getLsbD 1) (arg.getLsbD 0)
  | 0x7 => .shift (arg.getLsbD 3) (arg.getLsbD 2)
  | 0x8 => .func (arg.getLsbD 4) (arg.getLsbD 3) (arg.getLsbD 2)
  | 0x9 => .cgaddr (arg.extractLsb' 0 6)
  | 0xA => .ddaddr (arg.extractLsb' 0 7)
  | 0xB => .init
  | 0xC => .bl (arg.getLsbD 0)
  | 0xD => .reservedD
  | 0xE => .reservedE
  | _ => .reservedF

/-- The decoder (R52): total, every 12-bit word is exactly one row. -/
def decode (w : ReqWord) : Instr := decodeFields (opOf w) (argOf w)

/-- Why a number is no request word. -/
inductive DecodeError where
  /-- It has a bit set above bit 11: every request is one word of 12 bits (R50). -/
  | widerThanRequestWord
  deriving DecidableEq, Repr

/-- Decode a number: the request, or why it is none. -/
def decodeNumber (w : Nat) : Except DecodeError Instr :=
  if w < 4096 then .ok (decode (BitVec.ofNat 12 w)) else .error .widerThanRequestWord

/-- The operation code of a request (R51). -/
def Instr.code : Instr → BitVec 4
  | .nib _ _ _ => 0x0
  | .cmd _ => 0x1
  | .dat _ => 0x2
  | .clr => 0x3
  | .home => 0x4
  | .entry _ _ => 0x5
  | .disp _ _ _ => 0x6
  | .shift _ _ => 0x7
  | .func _ _ _ => 0x8
  | .cgaddr _ => 0x9
  | .ddaddr _ => 0xA
  | .init => 0xB
  | .bl _ => 0xC
  | .reservedD => 0xD
  | .reservedE => 0xE
  | .reservedF => 0xF

/-- A one-bit operand at bit `k` of `arg`. -/
def argBit (k : Nat) (v : Bool) : Byte := if v then 1 <<< k else 0

/-- The argument of a request, reserved bits 0 (R51). -/
def Instr.argByte : Instr → Byte
  | .nib lit rs n => argBit 5 lit ||| argBit 4 rs ||| n.setWidth 8
  | .cmd b => b
  | .dat b => b
  | .clr => 0
  | .home => 0
  | .entry id sh => argBit 1 id ||| argBit 0 sh
  | .disp d c b => argBit 2 d ||| argBit 1 c ||| argBit 0 b
  | .shift sc rl => argBit 3 sc ||| argBit 2 rl
  | .func dl n f => argBit 4 dl ||| argBit 3 n ||| argBit 2 f
  | .cgaddr a => a.setWidth 8
  | .ddaddr a => a.setWidth 8
  | .init => 0
  | .bl v => argBit 0 v
  | .reservedD => 0
  | .reservedE => 0
  | .reservedF => 0

/-- The encoder: the word of a request, reserved bits 0. -/
def encode (i : Instr) : ReqWord := mkWord i.code i.argByte

/-- The bits of `arg` that the row of an operation code names (R51); the others are reserved (R53). -/
def argMask (op : BitVec 4) : Byte :=
  match op.toNat with
  | 0x0 => 0x3F
  | 0x1 => 0xFF
  | 0x2 => 0xFF
  | 0x5 => 0x03
  | 0x6 => 0x07
  | 0x7 => 0x0C
  | 0x8 => 0x1C
  | 0x9 => 0x3F
  | 0xA => 0x7F
  | 0xC => 0x01
  | _ => 0x00

/-- One row of the opcode table: mnemonic, the match and mask of its words (mask 0xF00 in every row, R52). -/
structure OpRow where
  mnemonic : String
  wmatch : ReqWord
  wmask : ReqWord
  deriving DecidableEq, Repr

/-- The opcode table as it stands in spec/opcode_table.json. -/
def opTable : List OpRow :=
  [⟨"NIB", 0x000, 0xF00⟩, ⟨"CMD", 0x100, 0xF00⟩, ⟨"DAT", 0x200, 0xF00⟩, ⟨"CLR", 0x300, 0xF00⟩]
    ++ [⟨"HOME", 0x400, 0xF00⟩, ⟨"ENTRY", 0x500, 0xF00⟩, ⟨"DISP", 0x600, 0xF00⟩, ⟨"SHIFT", 0x700, 0xF00⟩]
    ++ [⟨"FUNC", 0x800, 0xF00⟩, ⟨"CGADDR", 0x900, 0xF00⟩, ⟨"DDADDR", 0xA00, 0xF00⟩, ⟨"INIT", 0xB00, 0xF00⟩]
    ++ [⟨"BL", 0xC00, 0xF00⟩, ⟨"RESERVED_D", 0xD00, 0xF00⟩, ⟨"RESERVED_E", 0xE00, 0xF00⟩]
    ++ [⟨"RESERVED_F", 0xF00, 0xF00⟩]

/-- The mnemonic of a request, as the table spells it. -/
def Instr.mnemonic : Instr → String
  | .nib _ _ _ => "NIB"
  | .cmd _ => "CMD"
  | .dat _ => "DAT"
  | .clr => "CLR"
  | .home => "HOME"
  | .entry _ _ => "ENTRY"
  | .disp _ _ _ => "DISP"
  | .shift _ _ => "SHIFT"
  | .func _ _ _ => "FUNC"
  | .cgaddr _ => "CGADDR"
  | .ddaddr _ => "DDADDR"
  | .init => "INIT"
  | .bl _ => "BL"
  | .reservedD => "RESERVED_D"
  | .reservedE => "RESERVED_E"
  | .reservedF => "RESERVED_F"

/-- The row a word selects: `req_word & 0xF00` equals the row's match (R52). -/
def OpRow.selects (r : OpRow) (w : ReqWord) : Bool := (w &&& r.wmask) == r.wmatch

/-- What the decoder reads from an instruction whose bits are `w` in the opcode table's numbering. A request is one
12-bit word, so the bits above bit 11 are 0 and `nbits` says no more. -/
def decodeTableWord (_nbits w : Nat) : Option Instr :=
  match decodeNumber w with
  | .ok i => some i
  | .error _ => none

end Sys2Proof
end

