-- ==== Sys2Proof/Machine/Defaults.lean ====
section
/-! DEFINITION. The default parameters (spec/00_scope.md section 4). Those the spec marks "from general knowledge, not
in source" or OPEN are a choice no statement rests on (log entry 3). -/

namespace Sys2Proof

/-- The defaults of section 4; for an OPEN parameter the recommended value where there is one, else a DESIGN CHOICE
(log entry 3): `DEVADDR` 0x27 is the source's example, `CLK_HZ` 1 MHz. -/
def Config.standard : Config where
  devAddr := 0x27
  addrW := 7
  blReset := true
  infoW := 8
  clkHz := 1000000
  blMask := 0x08
  rsMask := 0x01
  enMask := 0x04
  opClear := 0x01
  opHome := 0x02
  opEntry := 0x04
  opDisplay := 0x08
  opShift := 0x10
  opFunction := 0x20
  opCgram := 0x40
  opDdram := 0x80
  fEntryId := 0x02
  fEntryS := 0x01
  fDispD := 0x04
  fDispC := 0x02
  fDispB := 0x01
  fShiftSc := 0x08
  fShiftRl := 0x04
  fFuncDl := 0x10
  fFuncN := 0x08
  fFuncF := 0x04
  initReset8 := 0x03
  initSet4 := 0x02
  tSettle := 200
  tEnHigh := 500
  tEnLow := 200
  tInitStep := 100000
  tInitReset := 100000
  tInitDone := 200000
  tHomeClear := 1000000
  tCursorMode := 50000

end Sys2Proof
end

