-- ==== Sys2Proof/Machine/State.lean ====
section
/-! DEFINITION. The state of the block and of the agents around it, as plain data, and the state after reset
(spec/10_state.md R10 to R24). Fields the spec does not give the block are marked "own"; INVENTORY.md lists each. -/

namespace Sys2Proof.Machine

/-- A micro-operation of the sequencer (R15). -/
inductive MicroOp where
  /-- `W(v)`: a bus write of `v` with its settle (R70). -/
  | write (v : Byte)
  /-- `D(t)`: a delay of at least `t` microseconds (R71). -/
  | delay (t : Nat)
  deriving DecidableEq, Repr

/-- An item of the trace (section 5 of 00_scope.md). The sequencer alone writes them (R160). -/
inductive TraceItem where
  /-- `W v`: a bus write of `v` to `DEVADDR` that the transport answered with success. -/
  | wrote (v : Byte)
  /-- `WF v`: a bus write that the transport reported failed; "attempted" (U16). -/
  | writeFailed (v : Byte)
  /-- `G t`: a gap of at least `t` microseconds. -/
  | gap (t : Nat)
  deriving DecidableEq, Repr

/-- own: what an observer of the whole system sees beside the trace, with the number of trace items before it. -/
inductive Aside where
  /-- The host left the port idle for at least `t` microseconds (program P3, log entry 8). -/
  | hostWait (position t : Nat)
  /-- A bus write of `v` was outstanding when reset came; it had no answer (R24, U6, log entry 6). -/
  | cutWrite (position : Nat) (v : Byte)
  deriving DecidableEq, Repr

/-- `resp_status` (R18, R150). -/
inductive Status where
  /-- `ST_OK` = 0. -/
  | ok
  /-- `ST_TRANSPORT_FAIL` = 1. -/
  | transportFail
  deriving DecidableEq, Repr

/-- The response to one request (R18). -/
structure Response where
  status : Status
  info : Nat
  deriving DecidableEq, Repr

/-- What the host does next (R130, R59): put a request word on the request port, or leave the port idle. -/
inductive HostItem where
  | request (w : ReqWord)
  | wait (t : Nat)
  deriving DecidableEq, Repr

/-- The reasons for which the machine stops with a fault: none. A failed bus write is taken as the spec says
(`State.transportFailure`, R152) and the machine goes on; a transport that never answers is a hang, not a stop
(R156). Nothing raises a Fault, so the type has no constructor. -/
inductive Fault where
  deriving DecidableEq, Repr

/-- The reasons for which a request has no meaning in the model. -/
inductive Refusal where
  /-- The request is not modelled. Raised by an arm of `exec` that has no meaning yet; none is left. Safe: a run
  that ends so proves nothing about the hardware. -/
  | notModelled (mnemonic : String)
  deriving DecidableEq, Repr

/-- The machine: the parameters, the block, its ports, the agents around it, and the observation. -/
structure State where
  /-- The parameters (R2), fixed for a machine: no step changes them (log entry 1). -/
  cfg : Config
  /-- `BL`, the backlight register (R12). -/
  bl : Bool
  /-- `BUSY` (R13). -/
  busy : Bool
  /-- `OP`, the operation code latched at acceptance (R10, R11). -/
  op : BitVec 4
  /-- `ARG`, the argument latched at acceptance (R10, R11). -/
  arg : Byte
  /-- `SEQ`, what is left to do of the request in progress (R15). -/
  seq : List MicroOp
  /-- `TMR`, the microseconds left of the delay in progress (R16). -/
  tmr : Nat
  /-- The bound of the delay in progress; none when no delay runs (R16, R70, R71; log entry 11). -/
  delay : Option Nat
  /-- `req_valid`, driven by the host (R17). -/
  reqValid : Bool
  /-- `req_word`, driven by the host (R17). -/
  reqWord : ReqWord
  /-- The response port (R18): `resp_status` and `resp_info` while `resp_valid` is 1; none while it is 0, when the
  block holds no response (R10; log entry 13). -/
  resp : Option Response
  /-- The bus port (R19): `bus_data` while `bus_valid` is 1; none while it is 0, when the block keeps no copy of a byte
  it wrote (R10, R21; log entry 13). `bus_addr` is `State.busAddr`. -/
  bus : Option Byte
  /-- own: the values the reset input takes at the coming steps; low after the end (R20, log entry 6). -/
  rst : List Bool
  /-- own: what is left of the host macro in progress (R130). -/
  macroRest : List HostItem
  /-- own: the host's macros to come (R130). -/
  plan : List (List HostItem)
  /-- own: the transport's coming answers; free values after the end (R160, log entry 4). -/
  answers : List Answer
  /-- own: how many free values have been drawn (log entry 4). -/
  draws : Nat
  /-- own: the trace so far, oldest first. -/
  trace : List TraceItem
  /-- own: the host's waits and the writes cut by reset so far, oldest first. -/
  asides : List Aside
  /-- own: the responses so far, oldest first. -/
  responses : List Response
  /-- own: the microseconds really spent in delays and host waits so far; it is no counter of the block's (R161). -/
  waited : Nat
  deriving DecidableEq, Repr

/-- The state after reset of a block with parameters `c` (R24, R170): `BL` = `BL_RESET`, `BUSY` 0, `SEQ` empty, no
response, no bus write. `OP`, `ARG` and `TMR` have no reset value in the spec: DESIGN CHOICE 0 (log entry 2). The host
drives nothing and plans nothing, the transport's script is empty (log entries 4, 5). -/
def State.resetWith (c : Config) : State where
  cfg := c
  bl := c.blReset
  busy := false
  op := 0
  arg := 0
  seq := []
  tmr := 0
  delay := none
  reqValid := false
  reqWord := 0
  resp := none
  bus := none
  rst := []
  macroRest := []
  plan := []
  answers := []
  draws := 0
  trace := []
  asides := []
  responses := []
  waited := 0

/-- The machine right after reset, with the default parameters (log entry 3). -/
def State.reset : State := State.resetWith Config.standard

end Sys2Proof.Machine
end

