-- ==== Sys2Proof/Machine/Flags.lean ====
section
/-! DEFINITION. The block's one flag and what is read from it, and the response's status code (spec/10_state.md R13,
R17 to R19; there are no condition codes). -/

namespace Sys2Proof.Machine

/-- `req_ready`, which is `~BUSY` (R17): all the host can read of the block (R22). -/
def State.reqReady (s : State) : Bool := !s.busy

/-- `resp_valid` (R18). -/
def State.respValid (s : State) : Bool := s.resp.isSome

/-- `bus_valid` (R19). -/
def State.busValid (s : State) : Bool := s.bus.isSome

/-- The status bit on the response port: `ST_OK` = 0, `ST_TRANSPORT_FAIL` = 1 (R18, R150). -/
def Status.code : Status → BitVec 1
  | .ok => 0
  | .transportFail => 1

/-- `bus_addr`: always `DEVADDR`, unchecked and unmasked (R14, R19, R30). -/
def State.busAddr (s : State) : Nat := s.cfg.devAddr

/-- The information as the `INFO_W` wires of the port carry it (R18, R19): a value of `INFO_W` bits unchanged. -/
def infoPort (c : Config) (i : Nat) : Nat := i % 2 ^ c.infoW

end Sys2Proof.Machine
end

