-- ==== Sys2Proof/Machine/Operands.lean ====
section
/-! DEFINITION. Operand assembly: the bus byte and the command bytes (spec/30_encoding.md R55 to R57,
spec/42_command_encoder.md R100 to R107). -/

namespace Sys2Proof.Machine

/-- `c ? m : 0`: a flag operand selects its mask or 0 (R57). -/
def sel (c : Bool) (m : Byte) : Byte := if c then m else 0

/-- `b[7:4]` (R34). -/
def hiNibble (b : Byte) : Nibble := b.extractLsb' 4 4

/-- `b[3:0]` (R34). -/
def loNibble (b : Byte) : Nibble := b.extractLsb' 0 4

/-- The byte handed to the Bus Transport:
`(n << 4) | (bl ? BL_MASK : 0) | (rs ? RS_MASK : 0) | (en ? EN_MASK : 0)` (R55). -/
def busByte (c : Config) (rs bl en : Bool) (n : Nibble) : Byte :=
  (n.setWidth 8 <<< 4) ||| sel bl c.blMask ||| sel rs c.rsMask ||| sel en c.enMask

/-- Clear display (R100). -/
def cmdClear (c : Config) : Byte := c.opClear

/-- Return home (R101). -/
def cmdHome (c : Config) : Byte := c.opHome

/-- Entry-mode-set (R102). -/
def cmdEntry (c : Config) (id sh : Bool) : Byte :=
  c.opEntry ||| sel id c.fEntryId ||| sel sh c.fEntryS

/-- Display-control (R103). -/
def cmdDisplay (c : Config) (d cu b : Bool) : Byte :=
  c.opDisplay ||| sel d c.fDispD ||| sel cu c.fDispC ||| sel b c.fDispB

/-- Cursor-or-display-shift (R104). -/
def cmdShift (c : Config) (sc rl : Bool) : Byte :=
  c.opShift ||| sel sc c.fShiftSc ||| sel rl c.fShiftRl

/-- Function-set (R105). -/
def cmdFunction (c : Config) (dl n f : Bool) : Byte :=
  c.opFunction ||| sel dl c.fFuncDl ||| sel n c.fFuncN ||| sel f c.fFuncF

/-- Set-CGRAM-address: the 6-bit address OR-ed in with no shift (R106, R57). -/
def cmdCgram (c : Config) (a : BitVec 6) : Byte := c.opCgram ||| a.setWidth 8

/-- Set-DDRAM-address: the 7-bit address OR-ed in with no shift (R107, R57). -/
def cmdDdram (c : Config) (a : BitVec 7) : Byte := c.opDdram ||| a.setWidth 8

/-- The byte of the raw backlight write: just the backlight bit (R122). -/
def backlightByte (c : Config) (v : Bool) : Byte := sel v c.blMask

end Sys2Proof.Machine
end

