-- ==== Sys2Proof/Machine/Ops.lean ====
section
/-! DEFINITION. The named operations: the expansions into micro-operations (R72, R90, R120), taking a request (R17), the
sequencer's actions on the head of SEQ (R70, R71), the response (R18), the transport failure (R152), the host's side
(R130) and reset (R24). -/

namespace Sys2Proof.Machine

/-! ### Expansions -/

/-- `Nibble(rs, bl, n)`: present, Enable high, hold, Enable low, hold (R72). -/
def nibbleOps (c : Config) (rs bl : Bool) (n : Nibble) : List MicroOp :=
  let base := busByte c rs bl false n
  [.write base, .write (base ||| c.enMask), .delay c.tEnHigh, .write (base &&& ~~~c.enMask), .delay c.tEnLow]

/-- `Byte(rs, b)` with the backlight `bl`: high nibble, then low nibble (R90). -/
def byteOps (c : Config) (rs bl : Bool) (b : Byte) : List MicroOp :=
  nibbleOps c rs bl (hiNibble b) ++ nibbleOps c rs bl (loNibble b)

/-- The initialisation handshake with the backlight `bl` (R120). -/
def initOps (c : Config) (bl : Bool) : List MicroOp :=
  byteOps c false bl c.initReset8 ++ [.delay c.tInitStep]
    ++ byteOps c false bl c.initReset8 ++ [.delay c.tInitStep]
    ++ byteOps c false bl c.initReset8 ++ [.delay c.tInitStep]
    ++ byteOps c false bl c.initSet4 ++ [.delay c.tInitReset]
    ++ byteOps c false bl (cmdFunction c false true false)
    ++ byteOps c false bl (cmdDisplay c true false false)
    ++ byteOps c false bl (cmdClear c)
    ++ byteOps c false bl (cmdEntry c true false)
    ++ [.delay c.tInitDone]

/-- The raw backlight write: one bus write, no strobe (R122). -/
def backlightOps (c : Config) (v : Bool) : List MicroOp := [.write (backlightByte c v)]

/-- The clock cycles a clocked build counts for a delay of `t` microseconds: `ceil(t * CLK_HZ / 1000000)` (R20,
R183). -/
def delayCycles (c : Config) (t : Nat) : Nat := (t * c.clkHz + 999999) / 1000000

/-! ### Taking a request -/

/-- Acceptance (R17): the word on the port goes into the latch, BUSY <- 1, SEQ is filled; the handshake takes the word
off the port (log entry 5). -/
def State.accept (s : State) (ops : List MicroOp) : State :=
  { s with op := opOf s.reqWord, arg := argOf s.reqWord, busy := true, seq := ops,
           reqValid := false }

/-- `BL <- v` (R122). -/
def State.writeBl (s : State) (v : Bool) : State := { s with bl := v }

/-- A request whose expansion is `ops`: accepted when the block is idle; while BUSY is 1 it is not accepted and not
queued, and waits on the port (R13, R17). -/
def State.request (s : State) (ops : List MicroOp) : Host.Outcome State Fault Refusal :=
  if s.busy then .next s else .next (s.accept ops)

/-! ### The sequencer -/

/-- Raise `bus_valid` with the byte `v`; it is held until the transport answers (R19, R70). -/
def State.issueWrite (s : State) (v : Byte) : State := { s with bus := some v }

/-- Start a delay of at least `t` microseconds. How much longer it lasts is a free value (R71, U8, log entry 4). -/
def State.startDelay (s : State) (t : Nat) : State :=
  { s with tmr := t + Config.extraDelay s.draws, delay := some t, draws := s.draws + 1 }

/-- The delay in progress, whose bound is `t`, has run out: its micro-operation is done (R15, R70, R71). -/
def State.endDelay (s : State) (t : Nat) : State :=
  { s with trace := s.trace ++ [.gap t], waited := s.waited + s.tmr, tmr := 0, delay := none, seq := s.seq.tail }

/-- The write of `v` has been answered with success: `W v` on the trace, and the settle starts (R70, D18). `bus_valid`
falls, and the block keeps no copy of the byte (R21). -/
def State.writeSucceeded (s : State) (v : Byte) : State :=
  ({ s with bus := none, trace := s.trace ++ [.wrote v] } : State).startDelay s.cfg.tSettle

/-- Give the response and become idle (R18). -/
def State.respond (s : State) (st : Status) (i : Nat) : State :=
  { s with busy := false, resp := some ⟨st, i⟩, responses := s.responses ++ [⟨st, i⟩] }

/-- SEQ is empty: the response `ST_OK`, with information 0 (R15, R18). -/
def State.respondOk (s : State) : State := s.respond .ok 0

/-- TAKING THE EXCEPTION: `raise TransportFailure(i)` at the write of `v` (R152). `WF v` on the trace, SEQ emptied, no
settle, the response with `ST_TRANSPORT_FAIL` and `i`, BUSY <- 0; BL is not rolled back, nothing is saved, there is no
vector. The return from it is that the block is idle (R155). -/
def State.transportFailure (s : State) (v : Byte) (i : Nat) : State :=
  ({ s with bus := none, seq := [], trace := s.trace ++ [.writeFailed v] } : State).respond
    .transportFail (infoPort s.cfg i)

/-- The host sees `ST_TRANSPORT_FAIL`: it stops the macro in progress and sends none of the rest (R130). A wait of
the rest, which R176 or R177 still owes for a request already answered, is dropped with it: DESIGN CHOICE, log entry 14. -/
def State.hostStops (s : State) : State := { s with macroRest := [] }

/-- What the transport does with the outstanding write when the block looks: the head of the script, and after its end
a free value (R160, log entry 4). -/
def State.peekAnswer (s : State) : Answer :=
  match s.answers with
  | a :: _ => a
  | [] => Config.transportAnswer s.draws

/-- The look of `peekAnswer` is over. -/
def State.takeAnswer (s : State) : State :=
  match s.answers with
  | _ :: rest => { s with answers := rest }
  | [] => { s with draws := s.draws + 1 }

/-- The write of `v` is outstanding: success, failure, or no answer yet, and then the block waits; it never passes an
unanswered write (R19, R70, U4). -/
def State.lookAtBus (s : State) (v : Byte) : State :=
  match s.peekAnswer with
  | .notYet => s.takeAnswer
  | .ok => s.takeAnswer.writeSucceeded v
  | .fail i => (s.takeAnswer.transportFailure v i).hostStops

/-- One action of the sequencer on the head of SEQ while a request is in progress (R15, R70, R71). -/
def State.sequence (s : State) : State :=
  match s.delay with
  | some t => s.endDelay t
  | none =>
    match s.bus with
    | some v => s.lookAtBus v
    | none =>
      match s.seq with
      | [] => s.respondOk
      | .write v :: _ => s.issueWrite v
      | .delay t :: _ => s.startDelay t

/-! ### The host -/

/-- The host drives `w` on the request port (R17). -/
def State.present (s : State) (w : ReqWord) : State := { s with reqValid := true, reqWord := w }

/-- The host drops `req_valid`: a request not yet accepted is lost (R17). -/
def State.withdraw (s : State) : State := { s with reqValid := false }

/-- The host leaves the port idle for at least `t` microseconds (R59, R176, R177). The trace is the sequencer's alone
(R160), so the wait is an aside (program P3, log entry 8). -/
def State.hostWait (s : State) (t : Nat) : State :=
  { s with asides := s.asides ++ [.hostWait s.trace.length t], waited := s.waited + (t + Config.extraDelay s.draws),
           draws := s.draws + 1 }

/-- The host's turn, when the block is idle and nothing is on the request port (R130, R160): the next item of the
macro in progress, else the next macro of the plan, else nothing. -/
def State.hostTurn (s : State) : State :=
  match s.macroRest with
  | .request w :: rest => ({ s with macroRest := rest } : State).present w
  | .wait t :: rest => ({ s with macroRest := rest } : State).hostWait t
  | [] =>
    match s.plan with
    | [] => s
    | m :: ms => { s with macroRest := m, plan := ms }

/-! ### Reset and the step's frame -/

/-- The block's state and outputs while `rst` is 1 (R24, R170): the reset values; a request in progress is dropped
without a response, and the host gives up the macro it came from. A write that was outstanding has no answer and is an
aside. On an idle block the host keeps its macro and what it drives on the port. DESIGN CHOICE, log entry 6. -/
def State.applyReset (s : State) : State :=
  { s with bl := s.cfg.blReset, busy := false, op := 0, arg := 0, seq := [], tmr := 0, delay := none,
           resp := none, bus := none, macroRest := if s.busy then [] else s.macroRest,
           asides := s.asides ++ s.bus.toList.map (.cutWrite s.trace.length) }

/-- What begins every step: this step's value of `rst` is read, and the response pulse of the step before is over
(R18, R20). -/
def State.beginStep (s : State) : State := { s with rst := s.rst.tail, resp := none }

/-- The value of `rst` at this step (R20). -/
def State.rstNow (s : State) : Bool := s.rst.headD false

end Sys2Proof.Machine
end

