-- ==== Sys2Proof/Machine/ByteTransfer.lean ====
section
/-! DEFINITION. Byte transfer (spec/41_byte_transfer.md): CMD, DAT. -/

namespace Sys2Proof.Machine

/-- CMD: `Byte(0, b)` with the backlight BL (R91). -/
def execCmd (b : Byte) (s : State) : Host.Outcome State Fault Refusal :=
  s.request (byteOps s.cfg false s.bl b)

/-- DAT: `Byte(1, b)` with the backlight BL (R92). -/
def execDat (b : Byte) (s : State) : Host.Outcome State Fault Refusal :=
  s.request (byteOps s.cfg true s.bl b)

end Sys2Proof.Machine
end

