-- ==== Sys2Proof/Machine/CommandEncoder.lean ====
section
/-! DEFINITION. The command encoder (spec/42_command_encoder.md R100 to R108): each builder is `Byte(0, c)` of the command
byte `c` it builds, with the backlight BL. -/

namespace Sys2Proof.Machine

/-- CLR (R100). -/
def execClr (s : State) : Host.Outcome State Fault Refusal :=
  s.request (byteOps s.cfg false s.bl (cmdClear s.cfg))

/-- HOME (R101). -/
def execHome (s : State) : Host.Outcome State Fault Refusal :=
  s.request (byteOps s.cfg false s.bl (cmdHome s.cfg))

/-- ENTRY (R102). -/
def execEntry (id sh : Bool) (s : State) : Host.Outcome State Fault Refusal :=
  s.request (byteOps s.cfg false s.bl (cmdEntry s.cfg id sh))

/-- DISP (R103). -/
def execDisp (d c b : Bool) (s : State) : Host.Outcome State Fault Refusal :=
  s.request (byteOps s.cfg false s.bl (cmdDisplay s.cfg d c b))

/-- SHIFT (R104). -/
def execShift (sc rl : Bool) (s : State) : Host.Outcome State Fault Refusal :=
  s.request (byteOps s.cfg false s.bl (cmdShift s.cfg sc rl))

/-- FUNC (R105). -/
def execFunc (dl n f : Bool) (s : State) : Host.Outcome State Fault Refusal :=
  s.request (byteOps s.cfg false s.bl (cmdFunction s.cfg dl n f))

/-- CGADDR (R106). -/
def execCgaddr (a : BitVec 6) (s : State) : Host.Outcome State Fault Refusal :=
  s.request (byteOps s.cfg false s.bl (cmdCgram s.cfg a))

/-- DDADDR (R107). -/
def execDdaddr (a : BitVec 7) (s : State) : Host.Outcome State Fault Refusal :=
  s.request (byteOps s.cfg false s.bl (cmdDdram s.cfg a))

end Sys2Proof.Machine
end

