-- ==== Sys2Proof/Machine/NibbleTransmitter.lean ====
section
/-! DEFINITION. The nibble transmitter (spec/40_nibble_transmitter.md): NIB. -/

namespace Sys2Proof.Machine

/-- NIB: `Nibble(rs, bl, n)` with its own backlight operand; BL is neither read nor written (R73). -/
def execNib (bl rs : Bool) (n : Nibble) (s : State) : Host.Outcome State Fault Refusal :=
  s.request (nibbleOps s.cfg rs bl n)

end Sys2Proof.Machine
end

