-- ==== Sys2Proof/Machine/Reserved.lean ====
section
/-! DEFINITION. The reserved operation codes (spec/30_encoding.md R54): accepted like any request, no micro-operation, so
that the next step answers `ST_OK`. The spec gives this effect and advises a model to refuse the words (U1); log
entry 7 says why the model runs them. -/

namespace Sys2Proof.Machine

/-- Operation code 0xD (R54). -/
def execReservedD (s : State) : Host.Outcome State Fault Refusal := s.request []

/-- Operation code 0xE (R54). -/
def execReservedE (s : State) : Host.Outcome State Fault Refusal := s.request []

/-- Operation code 0xF (R54). -/
def execReservedF (s : State) : Host.Outcome State Fault Refusal := s.request []

end Sys2Proof.Machine
end

