-- ==== Sys2Proof/Machine/SystemRequests.lean ====
section
/-! DEFINITION. The system requests (spec/43_init_and_backlight.md): INIT, BL. -/

namespace Sys2Proof.Machine

/-- INIT: the initialisation handshake, every nibble with the backlight BL as it stands at acceptance (R120). -/
def execInit (s : State) : Host.Outcome State Fault Refusal :=
  s.request (initOps s.cfg s.bl)

/-- BL: `BL <- v` first, then the raw write (R122). While BUSY is 1 it is not accepted and BL stays (R17). -/
def execBl (v : Bool) (s : State) : Host.Outcome State Fault Refusal :=
  if s.busy then .next s else (s.writeBl v).request (backlightOps s.cfg v)

end Sys2Proof.Machine
end

