-- ==== Sys2Proof/Machine/Dispatch.lean ====
section
/-! DEFINITION. The meaning of each request, one arm per constructor. -/

namespace Sys2Proof.Machine

def exec (i : Instr) (s : State) : Host.Outcome State Fault Refusal :=
  match i with
  | .nib bl rs n => Sys2Proof.Machine.execNib bl rs n s
  | .cmd b => Sys2Proof.Machine.execCmd b s
  | .dat b => Sys2Proof.Machine.execDat b s
  | .clr => Sys2Proof.Machine.execClr s
  | .home => Sys2Proof.Machine.execHome s
  | .entry id sh => Sys2Proof.Machine.execEntry id sh s
  | .disp d c b => Sys2Proof.Machine.execDisp d c b s
  | .shift sc rl => Sys2Proof.Machine.execShift sc rl s
  | .func dl n f => Sys2Proof.Machine.execFunc dl n f s
  | .cgaddr a => Sys2Proof.Machine.execCgaddr a s
  | .ddaddr a => Sys2Proof.Machine.execDdaddr a s
  | .init => Sys2Proof.Machine.execInit s
  | .bl v => Sys2Proof.Machine.execBl v s
  | .reservedD => Sys2Proof.Machine.execReservedD s
  | .reservedE => Sys2Proof.Machine.execReservedE s
  | .reservedF => Sys2Proof.Machine.execReservedF s

end Sys2Proof.Machine
end

