-- ==== Sys2Proof/Machine/Step.lean ====
section
/-! DEFINITION. One step: one event of the run (spec/60_exceptions.md R160). Reset first; else the sequencer if a request
is in progress; else the request on the port, decoded and run; else the host's turn. -/

namespace Sys2Proof.Machine

/-- One step of the machine. -/
def step (s : State) : Host.Outcome State Fault Refusal :=
  if s.rstNow then .next s.beginStep.applyReset
  else if s.busy then .next s.beginStep.sequence
  else if s.reqValid then exec (decode s.reqWord) s.beginStep
  else .next s.beginStep.hostTurn

/-- `s` with the word `w` where the next step takes its request from: on the request port of an idle block, with `rst`
low at that step (R17, R43). A request in progress, if there was one, is gone. `w` is below 4096 in the opcode table's
numbering, whose rows have 12 bits. -/
def State.withFetchWord (s : State) (_nbits w : Nat) : State :=
  { s with rst := false :: s.rst.tail, busy := false, seq := [], delay := none, bus := none,
           reqValid := true, reqWord := BitVec.ofNat 12 w }

end Sys2Proof.Machine
end

