-- ==== Sys2Proof/Machine/Written.lean ====
section
/-! DEFINITION. The written form of a request (spec/30_encoding.md R59), used by the spec's vectors and programs: the
fields of R51 as data, a request as mnemonic and operands, its word, and the reading of one line of text. -/

namespace Sys2Proof.Machine

/-- A field of `arg`: its name, its lowest bit, its width (R51). A field of one bit is a flag. -/
structure ArgField where
  name : String
  lo : Nat
  width : Nat
  deriving DecidableEq, Repr

/-- The fields of an operation code, from the highest bit to the lowest (R51, R59). -/
def argFields (op : BitVec 4) : List ArgField :=
  match op.toNat with
  | 0x0 => [⟨"bl", 5, 1⟩, ⟨"rs", 4, 1⟩, ⟨"n", 0, 4⟩]
  | 0x1 => [⟨"b", 0, 8⟩]
  | 0x2 => [⟨"b", 0, 8⟩]
  | 0x5 => [⟨"id", 1, 1⟩, ⟨"s", 0, 1⟩]
  | 0x6 => [⟨"d", 2, 1⟩, ⟨"c", 1, 1⟩, ⟨"b", 0, 1⟩]
  | 0x7 => [⟨"sc", 3, 1⟩, ⟨"rl", 2, 1⟩]
  | 0x8 => [⟨"dl", 4, 1⟩, ⟨"n", 3, 1⟩, ⟨"f", 2, 1⟩]
  | 0x9 => [⟨"a", 0, 6⟩]
  | 0xA => [⟨"a", 0, 7⟩]
  | 0xC => [⟨"v", 0, 1⟩]
  | _ => []

/-- A request in written form: its operation code (by the mnemonic) and its operands as `name=value`. -/
structure Written where
  op : BitVec 4
  operands : List (String × Nat)
  deriving DecidableEq, Repr

/-- The argument the operands give, taken in the order of the fields; a flag left out is 0 (R59). An operand the row does
not have and one out of order give none: they are not R59's form. A value wider than its field (`NIB n=16`, `DISP d=2`)
and a field of more than one bit left out (`CMD` with no `b`) give none as well, where the spec does not say what they
mean: DESIGN CHOICE, log entry 9. -/
def argOfOperands : List ArgField → List (String × Nat) → Option Nat
  | [], [] => some 0
  | [], _ :: _ => none
  | f :: fs, [] => if f.width == 1 then argOfOperands fs [] else none
  | f :: fs, (name, v) :: rest =>
    if name == f.name then
      if v < 2 ^ f.width then (argOfOperands fs rest).map (v * 2 ^ f.lo + ·) else none
    else if f.width == 1 then argOfOperands fs ((name, v) :: rest)
    else none

/-- The word of a written request. -/
def assemble (x : Written) : Option ReqWord :=
  (argOfOperands (argFields x.op) x.operands).map fun a => mkWord x.op (BitVec.ofNat 8 a)

/-- A written request is well formed when it has a word. -/
def Written.wellFormed (x : Written) : Bool := (assemble x).isSome

/-- A request in written form with every operand, in the order of R59; a reserved code has none. -/
def writtenOf : Instr → Written
  | .nib bl rs n => ⟨0x0, [("bl", bl.toNat), ("rs", rs.toNat), ("n", n.toNat)]⟩
  | .cmd b => ⟨0x1, [("b", b.toNat)]⟩
  | .dat b => ⟨0x2, [("b", b.toNat)]⟩
  | .clr => ⟨0x3, []⟩
  | .home => ⟨0x4, []⟩
  | .entry id sh => ⟨0x5, [("id", id.toNat), ("s", sh.toNat)]⟩
  | .disp d c b => ⟨0x6, [("d", d.toNat), ("c", c.toNat), ("b", b.toNat)]⟩
  | .shift sc rl => ⟨0x7, [("sc", sc.toNat), ("rl", rl.toNat)]⟩
  | .func dl n f => ⟨0x8, [("dl", dl.toNat), ("n", n.toNat), ("f", f.toNat)]⟩
  | .cgaddr a => ⟨0x9, [("a", a.toNat)]⟩
  | .ddaddr a => ⟨0xA, [("a", a.toNat)]⟩
  | .init => ⟨0xB, []⟩
  | .bl v => ⟨0xC, [("v", v.toNat)]⟩
  | .reservedD => ⟨0xD, []⟩
  | .reservedE => ⟨0xE, []⟩
  | .reservedF => ⟨0xF, []⟩

/-! ### Reading a line -/

/-- A line of the written form: nothing, a request, or `.wait t`. -/
inductive Line where
  | blank
  | request (x : Written)
  | wait (t : Nat)
  deriving DecidableEq, Repr

/-- The words of a line, split at spaces and commas. -/
def splitWords : List Char → List (List Char)
  | [] => [[]]
  | ch :: rest =>
    if ch == ' ' || ch == ',' then [] :: splitWords rest
    else
      match splitWords rest with
      | [] => [[ch]]
      | w :: ws => (ch :: w) :: ws

/-- The value of a digit in base 16. -/
def digitValue (ch : Char) : Option Nat :=
  let k := ch.toNat
  if 48 ≤ k ∧ k ≤ 57 then some (k - 48)
  else if 65 ≤ k ∧ k ≤ 70 then some (k - 55)
  else if 97 ≤ k ∧ k ≤ 102 then some (k - 87)
  else none

/-- The digits `cs` after the value `acc`, in base `base`. -/
def numberFrom (base : Nat) : Nat → List Char → Option Nat
  | acc, [] => some acc
  | acc, ch :: rest =>
    match digitValue ch with
    | some d => if d < base then numberFrom base (acc * base + d) rest else none
    | none => none

/-- A value: decimal or `0x` hexadecimal (R59). -/
def numberOf : List Char → Option Nat
  | [] => none
  | '0' :: 'x' :: ch :: rest => numberFrom 16 0 (ch :: rest)
  | ch :: rest => numberFrom 10 0 (ch :: rest)

/-- One operand, `name=value`. -/
def operandOf (w : List Char) : Option (String × Nat) :=
  match w.dropWhile (· != '=') with
  | '=' :: value => (numberOf value).map fun v => (String.ofList (w.takeWhile (· != '=')), v)
  | _ => none

/-- The operation code of a mnemonic in capitals; the reserved codes have no written form. -/
def codeOfMnemonic (w : List Char) : Option (BitVec 4) :=
  ((opTable.take 13).find? fun r => r.mnemonic == String.ofList w).map fun r => opOf r.wmatch

/-- Read a line; a comment runs from `;` to its end (R59). A macro line (R60) reads as none: the spec gives its names and
no text syntax for its operands. DESIGN CHOICE, log entry 9. -/
def readLine (cs : List Char) : Option Line :=
  match (splitWords (cs.takeWhile (· != ';'))).filter (fun w => !w.isEmpty) with
  | [] => some .blank
  | w :: ws =>
    if w == ['.', 'w', 'a', 'i', 't'] then
      match ws with
      | [t] => (numberOf t).map .wait
      | _ => none
    else
      match codeOfMnemonic w, ws.mapM operandOf with
      | some op, some operands => some (.request ⟨op, operands⟩)
      | _, _ => none

/-- What a line makes the host do (R59). -/
def Line.items : Line → Option (List HostItem)
  | .blank => some []
  | .request x => (assemble x).map fun w => [.request w]
  | .wait t => some [.wait t]

end Sys2Proof.Machine
end

