-- ==== Sys2Proof/Machine/Macros.lean ====
section
/-! DEFINITION. The host macros (spec/44_host_macros.md R130 to R144): what each public operation of the Display Session
sends to the block, and what it does to the session's tracked fields. The session is the host's software; none of this is
state of the block (R21, R130). -/

namespace Sys2Proof.Machine

/-- `cursorState` (R137). -/
inductive CursorMode where
  | hidden
  | solid
  | blinking
  deriving DecidableEq, Repr

/-- The session's tracked fields (R21): host variables. The column is an integer: `moveDisplayLeft` takes 1 from it
without a check (R139, D22). -/
structure Session where
  trow : Nat
  tcol : Int
  displayOn : Bool
  cursor : CursorMode
  backlightOn : Bool
  deriving DecidableEq, Repr

/-- The pseudo-instructions (R60). -/
inductive Macro where
  | homew
  | clear
  | goto (row col : Nat)
  | puts (text : List Char) (row col : Nat)
  | putsc (text : List Char)
  | putc (ch : Char) (row col : Nat)
  | defchar (slot : Nat) (p0 p1 p2 p3 p4 p5 p6 p7 : Byte)
  | cursor (mode : CursorMode)
  | display (on : Bool)
  | movl
  | movr
  | backlight (on : Bool)
  deriving DecidableEq, Repr

/-- `ROWS`: "clamped to ≤4" when the session is built (R131). -/
def rowCount (h : HostConfig) : Nat := min h.rows 4

/-- `clamp(row)` (R131). -/
def clampRow (h : HostConfig) (row : Nat) : Nat :=
  if row < rowCount h then row else rowCount h - 1

/-- `rowOffsets`: {0x00, 0x40, columnCount, 0x40+columnCount} (R131). -/
def rowOffset (h : HostConfig) (row : Nat) : Nat :=
  match row with
  | 0 => 0x00
  | 1 => 0x40
  | 2 => h.cols
  | _ => 0x40 + h.cols

/-- The DDRAM address of (row, col): `rowOffsets[clamp(row)] + col` (R131), not checked against the row's length. -/
def ddramAddress (h : HostConfig) (row col : Nat) : Nat := rowOffset h (clampRow h row) + col

/-- The DDADDR request for an address. A sum of 0x80 or more is truncated to a byte, and DDADDR ignores bit 7 (R107,
N17, log entry 9). -/
def addressRequest (sum : Nat) : Instr := .ddaddr (BitVec.ofNat 7 sum)

/-- `remap(ch)` (R141): the table's code, or the code point truncated to a byte. -/
def remap (h : HostConfig) (ch : Char) : Byte :=
  match h.remapTable.find? (fun e => e.1 == ch.toNat) with
  | some e => e.2
  | none => BitVec.ofNat 8 ch.toNat

/-- A request as an item of the host's list. -/
def req (i : Instr) : HostItem := .request (encode i)

/-- One DAT per character, remapped (R135). -/
def textItems (h : HostConfig) (text : List Char) : List HostItem :=
  text.map fun ch => req (.dat (remap h ch))

/-- The display-control command of a cursor mode; display-on always with it (R137, R178). -/
def cursorRequest (h : HostConfig) : CursorMode → Instr
  | .hidden => .disp true false false
  | .solid => .disp true true false
  | .blinking => .disp true h.blinkWithCursor true

/-- The requests and waits a macro stands for (R132 to R144). -/
def Macro.expand (c : Config) (h : HostConfig) : Macro → List HostItem
  | .homew => [req .home, .wait c.tHomeClear]
  | .clear => [req .clr, req .home, .wait c.tHomeClear]
  | .goto row col => [req (addressRequest (ddramAddress h row col))]
  | .puts text row col => req (addressRequest (ddramAddress h row col)) :: textItems h text
  | .putsc text => textItems h text
  | .putc ch row col => [req (addressRequest (ddramAddress h row col)), req (.dat (remap h ch))]
  | .defchar slot p0 p1 p2 p3 p4 p5 p6 p7 =>
    req (.cgaddr (BitVec.ofNat 6 ((slot &&& 0x7) <<< 3)))
      :: [p0, p1, p2, p3, p4, p5, p6, p7].map fun p => req (.dat p)
  | .cursor mode => [req (cursorRequest h mode), .wait c.tCursorMode]
  | .display on => [req (.disp on false false)]
  | .movl => [req (.shift true false)]
  | .movr => [req (.shift true true)]
  | .backlight on => [req (.bl on)]

/-- What the host sends, with what the duties must know of it: whether a display-control request is `displayOn()` or
`displayOff()`, after which no wait is named (R138, R177, N18). On the port the two look the same. -/
inductive HostAct where
  /-- A request or a wait, whatever it is for. -/
  | item (x : HostItem)
  /-- The request of DISPLAY on or off (R138). -/
  | displayOnOff (on : Bool)
  deriving DecidableEq, Repr

/-- What the host's port shows of an act. -/
def HostAct.toItem : HostAct → HostItem
  | .item x => x
  | .displayOnOff on => req (.disp on false false)

/-- The acts of a macro: its items, with DISPLAY on and off said to be so. -/
def Macro.acts (c : Config) (h : HostConfig) : Macro → List HostAct
  | .display on => [.displayOnOff on]
  | m => (m.expand c h).map .item

/-- What a macro does to the session's tracked fields (R132 to R144). -/
def Macro.track (h : HostConfig) : Macro → Session → Session
  | .homew, s => { s with trow := 0, tcol := 0 }
  | .clear, s => { s with trow := 0, tcol := 0 }
  | .goto row col, s => { s with trow := clampRow h row, tcol := col }
  | .puts text row col, s => { s with trow := clampRow h row, tcol := col + text.length }
  | .putsc text, s => { s with tcol := s.tcol + text.length }
  | .putc _ row col, s =>
    { s with tcol := if h.putcFromGivenCol then (col : Int) + 1 else s.tcol + 1,
             trow := if h.putcSetsRow then clampRow h row else s.trow }
  | .defchar _ _ _ _ _ _ _ _ _, s => s
  | .cursor mode, s => { s with cursor := mode }
  | .display on, s => { s with displayOn := on }
  | .movl, s => { s with tcol := s.tcol - 1 }
  | .movr, s => { s with tcol := s.tcol + 1 }
  | .backlight on, s => { s with backlightOn := on }

/-- `writeLocalizedLines(line1, line2)` (R142): PUTS of `line1` on row 0, then of `line2` on row 1, from column 0. It is
one session operation, and R142 does not say whether `line2` is sent when a request of `line1` ends with
`ST_TRANSPORT_FAIL`. Here it is two macros, and `planOf` makes each a group of its own, so `line2` is still sent: DESIGN
CHOICE, log entry 9. -/
def localizedLines (line1 line2 : List Char) : List Macro := [.puts line1 0 0, .puts line2 1 0]

/-- The host's plan for a list of macros: one group each, so that a failure stops the macro it falls in (R130). -/
def planOf (c : Config) (h : HostConfig) (ms : List Macro) : List (List HostItem) := ms.map (Macro.expand c h)

end Sys2Proof.Machine
end

