-- ==== Sys2Proof/Machine/Observe.lean ====
section
/-! DEFINITION. What an observer computes from the trace (spec/00_scope.md section 5), and what a request's expansion
gives by the pseudocode alone, without the step function (R70 to R72, R152). The backpack's latch and what the
controller takes are outside the block (R21): they are computed here from the bytes, never held in State. -/

namespace Sys2Proof.Machine

/-- The bytes of the successful writes, in order: the "bus bytes" of spec/95_test_vectors.md. -/
def busBytes : List TraceItem → List Byte
  | [] => []
  | .wrote v :: rest => v :: busBytes rest
  | .writeFailed _ :: rest => busBytes rest
  | .gap _ :: rest => busBytes rest

/-- The least time the gaps of a trace add up to: "adjacent gaps add" (section 5). -/
def gapTotal : List TraceItem → Nat
  | [] => 0
  | .wrote _ :: rest => gapTotal rest
  | .writeFailed _ :: rest => gapTotal rest
  | .gap t :: rest => t + gapTotal rest

/-- Every byte the block emitted on the trace, the failed writes among them (R3). -/
def emittedBytes : List TraceItem → List Byte
  | [] => []
  | .wrote v :: rest => v :: emittedBytes rest
  | .writeFailed v :: rest => v :: emittedBytes rest
  | .gap _ :: rest => emittedBytes rest

/-- The bytes of the writes cut by reset. -/
def cutBytes : List Aside → List Byte
  | [] => []
  | .hostWait _ _ :: rest => cutBytes rest
  | .cutWrite _ v :: rest => v :: cutBytes rest

/-- The least time the host's waits add up to. -/
def hostWaitTotal : List Aside → Nat
  | [] => 0
  | .hostWait _ t :: rest => t + hostWaitTotal rest
  | .cutWrite _ _ :: rest => hostWaitTotal rest

/-! ### The trace and the asides in one order -/

/-- What an observer of the block and the host sees. -/
inductive TimelineItem where
  | block (x : TraceItem)
  | hostWait (t : Nat)
  | cutWrite (v : Byte)
  deriving DecidableEq, Repr

/-- How many trace items came before an aside. -/
def Aside.position : Aside → Nat
  | .hostWait p _ => p
  | .cutWrite p _ => p

/-- An aside as an item of the timeline. -/
def Aside.toTimeline : Aside → TimelineItem
  | .hostWait _ t => .hostWait t
  | .cutWrite _ v => .cutWrite v

/-- The asides that came after exactly `n` trace items. -/
def asidesAt (as : List Aside) (n : Nat) : List TimelineItem :=
  (as.filter fun a => a.position == n).map Aside.toTimeline

/-- The trace from its item `n` on, with the asides where they happened. -/
def timelineFrom (as : List Aside) : Nat → List TraceItem → List TimelineItem
  | n, [] => asidesAt as n
  | n, x :: rest => asidesAt as n ++ .block x :: timelineFrom as (n + 1) rest

/-- The trace with the host's waits and the cut writes where they happened (program P3). -/
def State.timeline (s : State) : List TimelineItem := timelineFrom s.asides 0 s.trace

/-! ### Micro-operations -/

/-- The bytes a list of micro-operations writes. -/
def opsBytes : List MicroOp → List Byte
  | [] => []
  | .write v :: rest => v :: opsBytes rest
  | .delay _ :: rest => opsBytes rest

/-- The least time a list of micro-operations takes, not counting the transport's own time (R182). -/
def opsLeastTime (c : Config) : List MicroOp → Nat
  | [] => 0
  | .write _ :: rest => c.tSettle + opsLeastTime c rest
  | .delay t :: rest => t + opsLeastTime c rest

/-- The trace and the response that a list of micro-operations gives by the pseudocode of R70, R71 and R152, with the
transport's successive answers (each one success or failure; `notYet` has been left out). None: the transport has not
answered every write that the list needs, so that there is no response (U4). -/
def runOps (c : Config) : List MicroOp → List Answer → Option (List TraceItem × Response)
  | [], _ => some ([], ⟨.ok, 0⟩)
  | .delay t :: rest, as => (runOps c rest as).map fun r => (.gap t :: r.1, r.2)
  | .write v :: rest, .ok :: as =>
    (runOps c rest as).map fun r => (.wrote v :: .gap c.tSettle :: r.1, r.2)
  | .write v :: _, .fail i :: _ => some ([.writeFailed v], ⟨.transportFail, infoPort c i⟩)
  | .write _ :: _, .notYet :: _ => none
  | .write _ :: _, [] => none

/-- The transport's answers, without the looks at which it had not answered yet. -/
def finalAnswers (as : List Answer) : List Answer := as.filter (· != .notYet)

/-- The micro-operations a request is expanded into, with the parameters `c` and the backlight `bl` at acceptance: the
list SEQ is filled with (R15). `Laws/Ops.lean` proves that `exec` does so. -/
def expansion (c : Config) (bl : Bool) : Instr → List MicroOp
  | .nib lit rs n => nibbleOps c rs lit n
  | .cmd b => byteOps c false bl b
  | .dat b => byteOps c true bl b
  | .clr => byteOps c false bl (cmdClear c)
  | .home => byteOps c false bl (cmdHome c)
  | .entry id sh => byteOps c false bl (cmdEntry c id sh)
  | .disp d cu b => byteOps c false bl (cmdDisplay c d cu b)
  | .shift sc rl => byteOps c false bl (cmdShift c sc rl)
  | .func dl n f => byteOps c false bl (cmdFunction c dl n f)
  | .cgaddr a => byteOps c false bl (cmdCgram c a)
  | .ddaddr a => byteOps c false bl (cmdDdram c a)
  | .init => initOps c bl
  | .bl v => backlightOps c v
  | .reservedD => []
  | .reservedE => []
  | .reservedF => []

/-- What BL is after a request has been accepted: only the BL request writes it (R12, R22). -/
def blAfter (i : Instr) (old : Bool) : Bool :=
  match i with
  | .bl v => v
  | .nib _ _ _ => old
  | .cmd _ => old
  | .dat _ => old
  | .clr => old
  | .home => old
  | .entry _ _ => old
  | .disp _ _ _ => old
  | .shift _ _ => old
  | .func _ _ _ => old
  | .cgaddr _ => old
  | .ddaddr _ => old
  | .init => old
  | .reservedD => old
  | .reservedE => old
  | .reservedF => old

/-- `n` steps of the machine, as the host runs it. -/
def run (n : Nat) (s : State) : Host.Outcome State Fault Refusal := Host.Core.run Sys2Proof.core n s

/-! ### The backpack and the controller's side of the bus -/

/-- The Enable level of a bus byte (R55). -/
def enableHigh (c : Config) (v : Byte) : Bool := (v &&& c.enMask) != 0

/-- The bytes that reached the device, in order. A successful write did; of a failed write or one cut by reset the
source does not say (U16, N10), so `reached` says it, one entry for each such write. -/
def reachedBytes : List Bool → List TimelineItem → List Byte
  | _, [] => []
  | reached, .block (.wrote v) :: rest => v :: reachedBytes reached rest
  | reached, .block (.writeFailed v) :: rest =>
    if reached.headD false then v :: reachedBytes reached.tail rest else reachedBytes reached.tail rest
  | reached, .cutWrite v :: rest =>
    if reached.headD false then v :: reachedBytes reached.tail rest else reachedBytes reached.tail rest
  | reached, .block (.gap _) :: rest => reachedBytes reached rest
  | reached, .hostWait _ :: rest => reachedBytes reached rest

/-- What the backpack's latch holds after `bytes` have reached it, if it held `before` (R21, R181). -/
def latchAfter (before : Byte) (bytes : List Byte) : Byte := bytes.getLastD before

/-- The nibbles presented when Enable falls, each with its register select, while the bytes after `before` reach the
device (R33, R75). That the controller takes the nibble at that fall is from general knowledge (G7): PRESUMED, log
entry 10. Where the byte that lowers Enable carries another nibble or register select than the byte before it, as can be
after a failure (R180 rows 3 and 6), the spec does not say which of the two is presented at the fall: here it is that of
the byte before, DESIGN CHOICE, log entry 10. -/
def strobes (c : Config) : Byte → List Byte → List (Bool × Nibble)
  | _, [] => []
  | before, v :: rest =>
    if enableHigh c before && !enableHigh c v then
      ((before &&& c.rsMask) != 0, hiNibble before) :: strobes c v rest
    else strobes c v rest

/-- A run is over when the response to its last request has been given and the block is idle (00_scope.md section 6):
nothing is on the port and the host plans no more. -/
def State.runOver (s : State) : Bool :=
  !s.busy && !s.reqValid && s.macroRest.isEmpty && s.plan.all List.isEmpty

end Sys2Proof.Machine
end

