-- ==== Sys2Proof/Safety.lean ====
section
/-! DEFINITION. What claims call safe: the invariant of the machine, and the duties of the host that the block does not
enforce (spec/70_reset_and_hazards.md R171 to R178). -/

namespace Sys2Proof.Machine

/-! ### The invariant of every step -/

/-- The bits of a bus byte that are neither nibble nor control: the fourth bit of 3:0, always written 0 (R3). -/
def spareBits (c : Config) : Byte := ~~~(0xF0 ||| c.blMask ||| c.rsMask ||| c.enMask)

/-- No write of the list sets the spare bit. -/
def opsClean (c : Config) (ops : List MicroOp) : Prop := ∀ v ∈ opsBytes ops, v &&& spareBits c = 0

/-- An idle block has nothing to do and nothing outstanding (R13, R15). -/
def State.IdleOk (s : State) : Prop :=
  s.busy = false → s.seq = [] ∧ s.bus = none ∧ s.delay = none

/-- An outstanding write is the head of SEQ, with its byte held, and no delay runs (R19, R40). -/
def State.BusOk (s : State) : Prop :=
  ∀ v, s.bus = some v → s.delay = none ∧ s.seq.head? = some (.write v)

/-- A delay in progress is the settle of the write at the head of SEQ, or the delay at the head; TMR holds at least
its bound (R16, R70, R71). -/
def State.DelayOk (s : State) : Prop :=
  ∀ t, s.delay = some t → s.bus = none ∧ t ≤ s.tmr ∧
    ((t = s.cfg.tSettle ∧ ∃ v, s.seq.head? = some (.write v)) ∨ s.seq.head? = some (.delay t))

/-- The invariant: the parameters are well formed; the three clauses above; SEQ is never longer than INIT's 85 (R15);
no byte in SEQ and none that was ever emitted sets the spare bit (R3); the response pulse comes with an idle block (R18);
the gaps of the trace and the host's waits have really passed (R71); every aside stands within the trace. -/
def State.Inv (s : State) : Prop :=
  s.cfg.wellFormed = true ∧ s.IdleOk ∧ s.BusOk ∧ s.DelayOk ∧ s.seq.length ≤ 85 ∧ opsClean s.cfg s.seq ∧
    (∀ v ∈ emittedBytes s.trace ++ cutBytes s.asides, v &&& spareBits s.cfg = 0) ∧
    (s.resp ≠ none → s.busy = false) ∧ gapTotal s.trace + hostWaitTotal s.asides ≤ s.waited ∧
    ∀ a ∈ s.asides, a.position ≤ s.trace.length

/-! ### The duties of the host -/

/-- The request sends a controller command or data: every request but BL and the reserved codes (R171, R176). -/
def sendsToController : Instr → Bool
  | .nib _ _ _ => true
  | .cmd _ => true
  | .dat _ => true
  | .clr => true
  | .home => true
  | .entry _ _ => true
  | .disp _ _ _ => true
  | .shift _ _ => true
  | .func _ _ _ => true
  | .cgaddr _ => true
  | .ddaddr _ => true
  | .init => true
  | .bl _ => false
  | .reservedD => false
  | .reservedE => false
  | .reservedF => false

/-- The command byte a request carries to the controller with register select 0; none for NIB, DAT, INIT, BL and the
reserved codes. -/
def commandByte (c : Config) : Instr → Option Byte
  | .cmd b => some b
  | .clr => some (cmdClear c)
  | .home => some (cmdHome c)
  | .entry id sh => some (cmdEntry c id sh)
  | .disp d cu b => some (cmdDisplay c d cu b)
  | .shift sc rl => some (cmdShift c sc rl)
  | .func dl n f => some (cmdFunction c dl n f)
  | .cgaddr a => some (cmdCgram c a)
  | .ddaddr a => some (cmdDdram c a)
  | .nib _ _ _ => none
  | .dat _ => none
  | .init => none
  | .bl _ => none
  | .reservedD => none
  | .reservedE => none
  | .reservedF => none

/-- The request of an act, none for a wait. -/
def requestOf : HostAct → Option Instr
  | .item (.request w) => some (decode w)
  | .item (.wait _) => none
  | .displayOnOff on => some (.disp on false false)

/-- The requests of a host's list, in order. -/
def requestsOf (acts : List HostAct) : List Instr := acts.filterMap requestOf

/-- R171: the first request that sends a controller command or data is INIT. -/
def initFirst (acts : List HostAct) : Bool :=
  match (requestsOf acts).filter sendsToController with
  | [] => true
  | i :: _ => i == .init

/-- R172: no function-set with 8-bit mode, by FUNC or by a CMD byte that means the same. -/
def neverEightBit (c : Config) (acts : List HostAct) : Bool :=
  (requestsOf acts).all fun i =>
    match commandByte c i with
    | none => true
    | some b => [false, true].all fun n => [false, true].all fun f => b != cmdFunction c true n f

/-- The request is a display-control command: DISP, or a CMD byte that means the same (R91, R103). INIT is none. -/
def isDisplayControl (c : Config) (i : Instr) : Bool :=
  match commandByte c i with
  | none => false
  | some x =>
    [false, true].any fun d => [false, true].any fun cu => [false, true].any fun b => x == cmdDisplay c d cu b

/-- What the waits of R176 and R177 depend on: the microseconds of wait still owed, and whether the request just before
was a clear. -/
structure Owed where
  wait : Nat
  afterClear : Bool
  deriving DecidableEq, Repr

/-- The request is a home command (R176: by HOME, or by a CMD byte that is the same). -/
def isHome (c : Config) (i : Instr) : Bool := commandByte c i == some (cmdHome c)

/-- The request is a clear command (R176). -/
def isClear (c : Config) (i : Instr) : Bool := commandByte c i == some (cmdClear c)

/-- The act is a cursor-mode change (R177): any display-control command but that of DISPLAY on or off, whatever flags were
sent before it, since R137 asks for the wait "after any of the three" modes. DISPLAY on or off and INIT are none (R177,
N18). Log entry 15. -/
def changesCursor (c : Config) : HostAct → Bool
  | .displayOnOff _ => false
  | .item (.wait _) => false
  | .item (.request w) => isDisplayControl c (decode w)

/-- The request may be sent: it sends nothing to the controller, or no wait is owed, or it is the home directly after a
clear, for which one wait is asked (R176). -/
def mayBeSent (c : Config) (o : Owed) (i : Instr) : Bool :=
  !sendsToController i || o.wait == 0 || (o.afterClear && isHome c i)

/-- What is owed after the response to the request `i` of the act `a`. A request that sends nothing to the controller
leaves the wait owed (R176, R177). -/
def owedAfter (c : Config) (o : Owed) (a : HostAct) (i : Instr) : Owed where
  wait :=
    if !sendsToController i then o.wait
    else if isClear c i || isHome c i then c.tHomeClear
    else if changesCursor c a then c.tCursorMode
    else 0
  afterClear := isClear c i

/-- R176, R177 from the point where `o` is owed. -/
def waitsKeptFrom (c : Config) : Owed → List HostAct → Bool
  | _, [] => true
  | o, .item (.wait t) :: rest => waitsKeptFrom c { o with wait := o.wait - t } rest
  | o, .item (.request w) :: rest =>
    mayBeSent c o (decode w) && waitsKeptFrom c (owedAfter c o (.item (.request w)) (decode w)) rest
  | o, .displayOnOff on :: rest =>
    mayBeSent c o (.disp on false false) &&
      waitsKeptFrom c (owedAfter c o (.displayOnOff on) (.disp on false false)) rest

/-- R176, R177: `T_HOME_CLEAR` is waited after home and clear, `T_CURSOR_MODE` after a cursor-mode change, before the next
command or data. Nothing is owed before the list (log entry 15). -/
def waitsKept (c : Config) (acts : List HostAct) : Bool := waitsKeptFrom c ⟨0, false⟩ acts

/-- The host keeps the duties of R171, R172, R176 and R177. -/
def hostObeys (c : Config) (acts : List HostAct) : Bool :=
  initFirst acts && neverEightBit c acts && waitsKept c acts

/-- A safe run, as claims about the display may assume it: every response so far was `ST_OK` (D13). -/
def State.allOk (s : State) : Bool := s.responses.all fun r => r.status == .ok

end Sys2Proof.Machine
end

