-- ==== Sys2Proof/Certificates/Slice0/Obligations.lean ====
section
/-! DEFINITION. The statements for the provers. Each docstring names the rule of spec/ it formalises. The helpers of
Sys2Proof.Says write what a request does in the spec's terms, apart from the model's own expansion functions. -/

namespace Sys2Proof.Says

open Sys2Proof.Machine

/-- `(bl ? BL_MASK : 0) | (rs ? RS_MASK : 0)`. -/
def controlBits (c : Config) (rs bl : Bool) : Byte := (if bl then c.blMask else 0) ||| (if rs then c.rsMask else 0)

/-- The five micro-operations of a nibble whose bus byte with Enable low is `x` (R72). -/
def strobe (c : Config) (x : Byte) : List MicroOp :=
  [.write x, .write (x ||| c.enMask), .delay c.tEnHigh, .write x, .delay c.tEnLow]

/-- The ten micro-operations of a byte: `b & 0xF0` first, then `(b << 4) & 0xF0` (R90, R93). -/
def byteStrobes (c : Config) (rs bl : Bool) (b : Byte) : List MicroOp :=
  strobe c ((b &&& 0xF0) ||| controlBits c rs bl) ++ strobe c (((b <<< 4) &&& 0xF0) ||| controlBits c rs bl)

/-- `s` after acceptance of the word on its port, with `ops` left to do, and nothing else changed (R17). That the word is
then off the port is the model's reading of the handshake (log entry 5). -/
def accepted (s : State) (ops : List MicroOp) : State :=
  { s with op := s.reqWord.extractLsb' 8 4, arg := s.reqWord.extractLsb' 0 8, busy := true, seq := ops,
           reqValid := false }

/-- `s` at the next step: the response pulse over, the reset schedule one on. -/
def ticked (s : State) : State := { s with rst := s.rst.tail, resp := none }

/-- The command byte with flags: the opcode and the masks of the flags that are 1 (R56). -/
def flagged (opcode : Byte) (flags : List (Bool × Byte)) : Byte :=
  flags.foldl (fun acc f => if f.1 then acc ||| f.2 else acc) opcode

/-- INIT in the order of R120. -/
def initSeq (c : Config) (bl : Bool) : List MicroOp :=
  byteStrobes c false bl 0x03 ++ [.delay c.tInitStep] ++
  byteStrobes c false bl 0x03 ++ [.delay c.tInitStep] ++
  byteStrobes c false bl 0x03 ++ [.delay c.tInitStep] ++
  byteStrobes c false bl 0x02 ++ [.delay 100000] ++
  byteStrobes c false bl (c.opFunction ||| c.fFuncN) ++
  byteStrobes c false bl (c.opDisplay ||| c.fDispD) ++
  byteStrobes c false bl c.opClear ++
  byteStrobes c false bl (c.opEntry ||| c.fEntryId) ++ [.delay 200000]

/-- What each request leaves the sequencer to do, with the backlight `bl` (R72, R90, R100 to R107, R120, R122, R54). -/
def requestSeq (c : Config) (bl : Bool) : Instr → List MicroOp
  | .nib lit rs n => strobe c (BitVec.ofNat 8 (16 * n.toNat) ||| controlBits c rs lit)
  | .cmd b => byteStrobes c false bl b
  | .dat b => byteStrobes c true bl b
  | .clr => byteStrobes c false bl c.opClear
  | .home => byteStrobes c false bl c.opHome
  | .entry id sh => byteStrobes c false bl (flagged c.opEntry [(id, c.fEntryId), (sh, c.fEntryS)])
  | .disp d cu b => byteStrobes c false bl (flagged c.opDisplay [(d, c.fDispD), (cu, c.fDispC), (b, c.fDispB)])
  | .shift sc rl => byteStrobes c false bl (flagged c.opShift [(sc, c.fShiftSc), (rl, c.fShiftRl)])
  | .func dl n f => byteStrobes c false bl (flagged c.opFunction [(dl, c.fFuncDl), (n, c.fFuncN), (f, c.fFuncF)])
  | .cgaddr a => byteStrobes c false bl (c.opCgram ||| BitVec.ofNat 8 a.toNat)
  | .ddaddr a => byteStrobes c false bl (BitVec.ofNat 8 (0x80 + a.toNat))
  | .init => initSeq c bl
  | .bl v => [.write (if v then c.blMask else 0)]
  | .reservedD => []
  | .reservedE => []
  | .reservedF => []

/-- BL after the acceptance of a request (R12, R22, R122). -/
def backlightAfter (i : Instr) (old : Bool) : Bool :=
  match i with
  | .bl v => v
  | _ => old

/-- The trace of micro-operations whose writes all succeed (R70, R71). -/
def okTrace (c : Config) (ops : List MicroOp) : List TraceItem :=
  ops.flatMap fun m =>
    match m with
    | .write v => [.wrote v, .gap c.tSettle]
    | .delay t => [.gap t]

/-- The trace of micro-operations whose first `k` writes succeed and whose next one fails (R152). -/
def failTrace (c : Config) : List MicroOp → Nat → List TraceItem
  | [], _ => []
  | .delay t :: rest, k => .gap t :: failTrace c rest k
  | .write v :: _, 0 => [.writeFailed v]
  | .write v :: rest, k + 1 => .wrote v :: .gap c.tSettle :: failTrace c rest k

/-- How many bus writes a request has (R151). -/
def writeCount : Instr → Nat
  | .nib _ _ _ => 3
  | .init => 48
  | .bl _ => 1
  | .reservedD => 0
  | .reservedE => 0
  | .reservedF => 0
  | _ => 6

/-- The least time of a request in microseconds (R182). -/
def leastTime (c : Config) : Instr → Nat
  | .nib _ _ _ => 1300
  | .init => 320800 + 3 * c.tInitStep
  | .bl _ => 200
  | .reservedD => 0
  | .reservedE => 0
  | .reservedF => 0
  | _ => 2600

/-- A request is on the port of an idle block, no reset is coming, and the block is one of the spec. -/
def ready (s : State) : Prop :=
  s.cfg.wellFormed = true ∧ s.IdleOk ∧ s.busy = false ∧ s.reqValid = true ∧ ∀ b ∈ s.rst, b = false

/-- The write of `v` is outstanding and its answer is awaited; no reset at this step. -/
def awaiting (s : State) (v : Byte) : Prop :=
  s.rstNow = false ∧ s.busy = true ∧ s.delay = none ∧ s.bus = some v

/-- The sequencer is free to take the next micro-operation; no reset at this step. -/
def between (s : State) : Prop :=
  s.rstNow = false ∧ s.busy = true ∧ s.delay = none ∧ s.bus = none

/-- The two states differ at most in what has been observed, in the response port and in the request latch. -/
def sameBut (s s' : State) : Prop :=
  s' = { s with trace := s'.trace, asides := s'.asides, responses := s'.responses, waited := s'.waited,
                resp := s'.resp, op := s'.op, arg := s'.arg }

/-- A number as a request word on the host's list. -/
def word (w : Nat) : HostItem := .request (BitVec.ofNat 12 w)

/-- The DDRAM address of (row, col) by R131, for `ROWS` clamped to 4. -/
def address (h : HostConfig) (row col : Nat) : Nat :=
  let r := if row < min h.rows 4 then row else min h.rows 4 - 1
  ([0x00, 0x40, h.cols, 0x40 + h.cols].getD r 0) + col

/-- `remap` by R141: the table's code, else the code point mod 256. -/
def code (h : HostConfig) (ch : Char) : Nat :=
  ((h.remapTable.lookup ch.toNat).map BitVec.toNat).getD (ch.toNat % 256)

/-- No builder but CLR sends the clear command, none but HOME the home command, none but FUNC an 8-bit function set, none
but DISP a display-control command. -/
def distinctCommands (c : Config) : Prop :=
  ∀ i : Instr, (∀ b, i ≠ .cmd b) →
    (commandByte c i = some (cmdClear c) → i = .clr) ∧ (commandByte c i = some (cmdHome c) → i = .home) ∧
    (∀ n f, commandByte c i = some (cmdFunction c true n f) → ∃ n' f', i = .func true n' f') ∧
    ∀ d cu b, commandByte c i = some (cmdDisplay c d cu b) → ∃ d' cu' b', i = .disp d' cu' b'

/-- The three requests that have no written form (R54, R59; log entry 9). -/
def reservedCodes : List Instr := [.reservedD, .reservedE, .reservedF]

/-- Enable on the backpack after the failure of write `k` (0 to 5) of a byte, by the table of R180. -/
def enableAfterFailure (reached : Bool) (k : Nat) : Bool :=
  [false, reached, !reached, false, reached, !reached].getD k false

/-- The nibbles of the byte taken by then, by the table of R180. -/
def takenAfterFailure (reached : Bool) (k : Nat) : Nat :=
  [0, 0, reached.toNat, 1, 1, 1 + reached.toNat].getD k 0

end Sys2Proof.Says

open Sys2Proof Sys2Proof.Machine Sys2Proof.Says

/-! ### Encoding -/

/-- R51: decoding the word of a well-formed request gives the request back, every operand at every value. -/
def Obligations.DecodeOfEncode : Prop :=
  ∀ i : Instr, i.wellFormed = true → decode (encode i) = i

/-- R53: two words are the same request exactly when they agree in the operation code and in every bit of `arg` that is
not reserved. -/
def Obligations.SameRequestIffOnlyReservedBitsDiffer : Prop :=
  ∀ w w' : ReqWord, decode w = decode w' ↔
    (w.extractLsb' 8 4 = w'.extractLsb' 8 4 ∧
      (w.extractLsb' 0 8 ^^^ w'.extractLsb' 0 8) &&& argMask (w.extractLsb' 8 4) = 0)

/-- R52: every word selects exactly one row of the opcode table, and it is the row of the request the decoder reads. -/
def Obligations.EveryWordSelectsOneRow : Prop :=
  ∀ w : ReqWord, ∃ r ∈ opTable, r.wmask = 0xF00 ∧ w &&& r.wmask = r.wmatch ∧ r.mnemonic = (decode w).mnemonic ∧
    ∀ r' ∈ opTable, w &&& r'.wmask = r'.wmatch → r' = r

/-- R51: the operands are the fields of `arg` at the places the table gives, as unsigned numbers. -/
def Obligations.OperandsAreTheFieldsOfArg : Prop :=
  ∀ w : ReqWord,
    match decode w with
    | .nib bl rs n => w.toNat / 256 = 0 ∧ n.toNat = w.toNat % 16 ∧ rs.toNat = w.toNat / 16 % 2 ∧
        bl.toNat = w.toNat / 32 % 2
    | .cmd b => w.toNat = 0x100 + b.toNat
    | .dat b => w.toNat = 0x200 + b.toNat
    | .clr => w.toNat / 256 = 3
    | .home => w.toNat / 256 = 4
    | .entry id sh => w.toNat / 256 = 5 ∧ sh.toNat = w.toNat % 2 ∧ id.toNat = w.toNat / 2 % 2
    | .disp d c b => w.toNat / 256 = 6 ∧ b.toNat = w.toNat % 2 ∧ c.toNat = w.toNat / 2 % 2 ∧
        d.toNat = w.toNat / 4 % 2
    | .shift sc rl => w.toNat / 256 = 7 ∧ rl.toNat = w.toNat / 4 % 2 ∧ sc.toNat = w.toNat / 8 % 2
    | .func dl n f => w.toNat / 256 = 8 ∧ f.toNat = w.toNat / 4 % 2 ∧ n.toNat = w.toNat / 8 % 2 ∧
        dl.toNat = w.toNat / 16 % 2
    | .cgaddr a => w.toNat / 256 = 9 ∧ a.toNat = w.toNat % 64
    | .ddaddr a => w.toNat / 256 = 10 ∧ a.toNat = w.toNat % 128
    | .init => w.toNat / 256 = 11
    | .bl v => w.toNat / 256 = 12 ∧ v.toNat = w.toNat % 2
    | .reservedD => w.toNat / 256 = 13
    | .reservedE => w.toNat / 256 = 14
    | .reservedF => w.toNat / 256 = 15

/-- R51 and R59, words written out from the spec's examples and vectors. -/
def Obligations.SpecWordsDecode : Prop :=
  decode 0x03A = .nib true true 0xA ∧ decode 0x128 = .cmd 0x28 ∧ decode 0x248 = .dat 0x48 ∧
  decode 0x502 = .entry true false ∧ decode 0x604 = .disp true false false ∧ decode 0x70C = .shift true true ∧
  decode 0x808 = .func false true false ∧ decode 0x9C8 = .cgaddr 0x08 ∧ decode 0xA40 = .ddaddr 0x40 ∧
  decode 0xB00 = .init ∧ decode 0xCFE = .bl false ∧ decode 0xE5A = .reservedE

/-- R59 with R51: the mnemonic of a request names its operation code, and the operands, every one named, are assembled with
it into the word of the request. The reserved codes have no mnemonic that the reader knows (log entry 9); their operand
list is empty. -/
def Obligations.WrittenFormIsTheEncodedWord : Prop :=
  ∀ i : Instr, assemble (writtenOf i) = some (encode i) ∧
    codeOfMnemonic i.mnemonic.toList = if i ∈ reservedCodes then none else some (writtenOf i).op

/-! ### Each request, accepted by an idle block: the next state, whole -/

/-- NIB (R72, R73): the five micro-operations of the nibble with its own backlight operand; BL, the status outputs and
everything else stay. The word is off the port by log entry 5, here and in the statements up to `ReservedCodesDoNothing`. -/
def Obligations.NibIsAcceptedWithItsStrobe : Prop :=
  ∀ (s : State) (bl rs : Bool) (n : Nibble), s.cfg.wellFormed = true → s.busy = false →
    exec (.nib bl rs n) s =
      .next (accepted s (strobe s.cfg (BitVec.ofNat 8 (16 * n.toNat) ||| controlBits s.cfg rs bl)))

/-- CMD and DAT (R90, R91, R92, R34): high nibble, then low nibble, register select 0 and 1, the backlight from BL. The
word is off the port by log entry 5. -/
def Obligations.CmdAndDatAreAcceptedWithTwoStrobes : Prop :=
  ∀ (s : State) (b : Byte), s.cfg.wellFormed = true → s.busy = false →
    exec (.cmd b) s = .next (accepted s (byteStrobes s.cfg false s.bl b)) ∧
    exec (.dat b) s = .next (accepted s (byteStrobes s.cfg true s.bl b))

/-- CLR and HOME (R100, R101): the command byte is the opcode, with no wait after it. The word is off
the port by log entry 5. -/
def Obligations.ClrAndHomeSendTheirOpcode : Prop :=
  ∀ s : State, s.cfg.wellFormed = true → s.busy = false →
    exec .clr s = .next (accepted s (byteStrobes s.cfg false s.bl s.cfg.opClear)) ∧
    exec .home s = .next (accepted s (byteStrobes s.cfg false s.bl s.cfg.opHome))

/-- ENTRY, DISP, SHIFT, FUNC (R102 to R105, R108): the opcode with the masks of the flags that are 1, all flag
combinations. The word is off the port by log entry 5. -/
def Obligations.FlagBuildersSendOpcodeAndFlags : Prop :=
  ∀ (s : State) (x y z : Bool), s.cfg.wellFormed = true → s.busy = false →
    exec (.entry x y) s = .next (accepted s (byteStrobes s.cfg false s.bl
      (flagged s.cfg.opEntry [(x, s.cfg.fEntryId), (y, s.cfg.fEntryS)]))) ∧
    exec (.disp x y z) s = .next (accepted s (byteStrobes s.cfg false s.bl
      (flagged s.cfg.opDisplay [(x, s.cfg.fDispD), (y, s.cfg.fDispC), (z, s.cfg.fDispB)]))) ∧
    exec (.shift x y) s = .next (accepted s (byteStrobes s.cfg false s.bl
      (flagged s.cfg.opShift [(x, s.cfg.fShiftSc), (y, s.cfg.fShiftRl)]))) ∧
    exec (.func x y z) s = .next (accepted s (byteStrobes s.cfg false s.bl
      (flagged s.cfg.opFunction [(x, s.cfg.fFuncDl), (y, s.cfg.fFuncN), (z, s.cfg.fFuncF)])))

/-- CGADDR and DDADDR (R106, R107): the address in the low bits of the opcode; DDADDR's byte is 0x80 plus the address.
The word is off the port by log entry 5. -/
def Obligations.AddressBuildersSendTheAddress : Prop :=
  ∀ (s : State) (a : BitVec 6) (d : BitVec 7), s.cfg.wellFormed = true → s.busy = false →
    exec (.cgaddr a) s = .next (accepted s (byteStrobes s.cfg false s.bl
      (s.cfg.opCgram ||| BitVec.ofNat 8 a.toNat))) ∧
    exec (.ddaddr d) s = .next (accepted s (byteStrobes s.cfg false s.bl (BitVec.ofNat 8 (0x80 + d.toNat))))

/-- INIT (R120): the handshake in its fixed order, every nibble with BL as it stands at acceptance; BL stays. The word is off
the port by log entry 5. -/
def Obligations.InitIsTheHandshake : Prop :=
  ∀ s : State, s.cfg.wellFormed = true → s.busy = false →
    exec .init s = .next (accepted s (initSeq s.cfg s.bl))

/-- BL (R122): the register first, whatever it was, then one raw write of just the backlight bit. The word is off
the port by log entry 5. -/
def Obligations.BlWritesTheRegisterFirst : Prop :=
  ∀ (s : State) (v : Bool), s.busy = false →
    exec (.bl v) s = .next { accepted s [.write (if v then s.cfg.blMask else 0)] with bl := v }

/-- R54: a reserved operation code is accepted like any request, and the step after the acceptance answers `ST_OK`: no
bus write, no delay, no change but the request latch and the response. The spec advises a proof not to lean on this
no-operation (U1); log entry 7. The word is off the port by log entry 5. -/
def Obligations.ReservedCodesDoNothing : Prop :=
  ∀ (s : State) (i : Instr), s.busy = false → s.delay = none → s.bus = none → s.rstNow = false →
    i ∈ [Instr.reservedD, Instr.reservedE, Instr.reservedF] →
    exec i s = .next (accepted s []) ∧
    step (accepted s []) = .next
      { accepted s [] with busy := false, rst := s.rst.tail, resp := some ⟨.ok, 0⟩,
                           responses := s.responses ++ [⟨.ok, 0⟩] }

/-- R17: while BUSY is 1 no request is accepted and nothing is queued; the request waits on the port, and the latch and
BL stay. That no step of the model withdraws the request, as R17 lets the host do, is log entry 5. -/
def Obligations.BusyBlockAcceptsNothing : Prop :=
  (∀ (i : Instr) (s : State), s.busy = true → exec i s = .next s) ∧
  ∀ s t : State, s.busy = true → s.rstNow = false → step s = .next t →
    t.reqValid = s.reqValid ∧ t.reqWord = s.reqWord ∧ t.op = s.op ∧ t.arg = s.arg ∧ t.bl = s.bl ∧ t.plan = s.plan

/-- R182, R151: the number of bus writes of each request and its least time, from what it leaves the sequencer to do. -/
def Obligations.WritesAndLeastTimeOfEachRequest : Prop :=
  ∀ (i : Instr) (s : State), s.cfg.wellFormed = true → s.busy = false →
    ∃ t, exec i s = .next t ∧ t.busy = true ∧ (opsBytes t.seq).length = writeCount i ∧
      opsLeastTime s.cfg t.seq = leastTime s.cfg i

/-- R93: of CMD and of DAT, the first three bus bytes carry `b & 0xF0` and the last three `(b << 4) & 0xF0`. -/
def Obligations.NibbleSplitOfEveryByte : Prop :=
  ∀ (s : State) (b : Byte) (i : Instr), s.cfg.wellFormed = true → s.busy = false → i = .cmd b ∨ i = .dat b →
    ∃ t, exec i s = .next t ∧
      (opsBytes t.seq).map (· &&& 0xF0) =
        List.replicate 3 (b &&& 0xF0) ++ List.replicate 3 ((b <<< 4) &&& 0xF0)

/-- R12: every bus byte of every request but NIB and BL carries the backlight bit as BL stands at acceptance; NIB's
carry its operand; BL's byte carries the new value. -/
def Obligations.BacklightBitOfEveryBusByte : Prop :=
  ∀ (i : Instr) (s : State), s.cfg.wellFormed = true → s.busy = false →
    ∃ t, exec i s = .next t ∧
      ∀ v ∈ opsBytes t.seq, (v &&& s.cfg.blMask ≠ 0 ↔
        (match i with
          | .nib bl _ _ => bl
          | .bl v => v
          | _ => s.bl) = true)

/-- R90, R121, R56: the register-select bit is 1 in every bus byte of DAT and 0 in every bus byte of the other requests,
INIT among them; NIB's is its operand. -/
def Obligations.RegisterSelectOfEveryBusByte : Prop :=
  ∀ (i : Instr) (s : State), s.cfg.wellFormed = true → s.busy = false →
    ∃ t, exec i s = .next t ∧
      ∀ v ∈ opsBytes t.seq, (v &&& s.cfg.rsMask ≠ 0 ↔
        (match i with
          | .nib _ rs _ => rs
          | .dat _ => true
          | _ => false) = true)

/-- R121: INIT makes 16 Enable strobes, all with register select 0, of the nibbles of its eight command bytes in order,
the first eight being 0, 3, 0, 3, 0, 3, 0, 2. -/
def Obligations.InitStrobesSixteenNibbles : Prop :=
  ∀ (s : State) (before : Byte), s.cfg.wellFormed = true → s.busy = false → enableHigh s.cfg before = false →
    ∃ t, exec .init s = .next t ∧ t.seq.length = 85 ∧ (opsBytes t.seq).length = 48 ∧
      strobes s.cfg before (opsBytes t.seq) =
        ([0x03, 0x03, 0x03, 0x02, s.cfg.opFunction ||| s.cfg.fFuncN, s.cfg.opDisplay ||| s.cfg.fDispD,
          s.cfg.opClear, s.cfg.opEntry ||| s.cfg.fEntryId] : List Byte).flatMap fun b =>
          [(false, b.extractLsb' 4 4), (false, b.extractLsb' 0 4)]

/-- R12, R21, R108: what an accepted request is to do depends on the request, the parameters and BL alone: nothing of
earlier requests is remembered, and NIB does not even depend on BL. -/
def Obligations.RequestsRememberOnlyBl : Prop :=
  ∀ (i : Instr) (s s' : State), s.busy = false → s'.busy = false → s'.cfg = s.cfg →
    (s'.bl = s.bl ∨ ∃ bl rs n, i = .nib bl rs n) →
    ∃ t t', exec i s = .next t ∧ exec i s' = .next t' ∧ t'.seq = t.seq ∧ t.busy = true ∧ t'.busy = true

/-! ### The step -/

/-- R17, R43: with a request on the port of an idle block and `rst` low, a step decodes the word and is `exec` of it;
around `exec` the response pulse ends and the reset schedule moves on. -/
def Obligations.StepRunsTheDecodedRequest : Prop :=
  ∀ s : State, s.rstNow = false → s.busy = false → s.reqValid = true →
    step s = exec (decode s.reqWord) (ticked s)

/-- The model's loading of a word (log entry 5): the very next step decodes and runs it, whatever the state was. -/
def Obligations.PlacedWordRunsNext : Prop :=
  ∀ (s : State) (nbits w : Nat), w < 4096 →
    step (s.withFetchWord nbits w) = exec (decode (BitVec.ofNat 12 w)) (ticked (s.withFetchWord nbits w)) ∧
    decodeTableWord nbits w = some (decode (BitVec.ofNat 12 w)) ∧
    (s.withFetchWord nbits w).bl = s.bl ∧ (s.withFetchWord nbits w).cfg = s.cfg

/-- R52, R162: no state stops the machine: every step answers a next state; nothing faults and nothing is refused. -/
def Obligations.EveryStepGoesOn : Prop :=
  ∀ s : State, ∃ t, step s = .next t

/-- R70, R19, R21: the sequencer raises `bus_valid` with the byte of the write at the head of SEQ, which stays at the head;
the port carries it exactly while the transport has not answered, and after the answer the block keeps no copy of it; no
trace item comes before the answer. -/
def Obligations.WriteIsIssuedAndHeld : Prop :=
  (∀ (s : State) (v : Byte) (rest : List MicroOp), between s → s.seq = .write v :: rest →
    step s = .next { ticked s with bus := some v }) ∧
  ∀ (s : State) (v : Byte), awaiting s v → ∃ t, step s = .next t ∧
    t.bus = (if s.peekAnswer = .notYet then some v else none) ∧
    (s.peekAnswer = .notYet → t.trace = s.trace ∧ t.seq = s.seq ∧ t.busy = true)

/-- R70, R21: a write of `v` answered with success puts `W v` on the trace, leaves the bus port and starts the settle; when
the settle has run out `G 200` follows and the write leaves SEQ. -/
def Obligations.SettleFollowsEverySuccessfulWrite : Prop :=
  ∀ (s : State) (v : Byte) (rest : List Answer), awaiting s v → s.answers = .ok :: rest →
    ∃ t, step s = .next t ∧ s.cfg.tSettle ≤ t.tmr ∧
      t = { ticked s with answers := rest, bus := none, trace := s.trace ++ [.wrote v],
                          delay := some s.cfg.tSettle, tmr := t.tmr, draws := s.draws + 1 } ∧
      (t.rstNow = false → step t = .next
        { ticked t with trace := s.trace ++ [.wrote v, .gap s.cfg.tSettle], delay := none, tmr := 0,
                        waited := s.waited + t.tmr, seq := s.seq.tail })

/-- R71: a delay at the head of SEQ runs for at least its bound, with no bus write and no response meanwhile, and then
`G t` is on the trace and the delay leaves SEQ. -/
def Obligations.DelayLastsAtLeastItsBound : Prop :=
  ∀ (s : State) (t : Nat) (rest : List MicroOp), between s → s.seq = .delay t :: rest →
    ∃ u, step s = .next u ∧ t ≤ u.tmr ∧ u = { ticked s with delay := some t, tmr := u.tmr, draws := s.draws + 1 } ∧
      (u.rstNow = false → step u = .next
        { ticked u with trace := s.trace ++ [.gap t], delay := none, tmr := 0, waited := s.waited + u.tmr,
                        seq := rest })

/-- R152, R150: a write of `v` answered with failure and information `i`: `WF v`, SEQ emptied, the response with
`ST_TRANSPORT_FAIL` and `i`, BUSY 0; BL, the latch and all else as they were. The host stops its macro (R130), the waits
in it too (log entry 14). -/
def Obligations.TransportFailureEndsTheRequest : Prop :=
  ∀ (s : State) (v : Byte) (i : Nat) (rest : List Answer), awaiting s v → s.answers = .fail i :: rest →
    i < 2 ^ s.cfg.infoW →
    step s = .next { ticked s with
      answers := rest, bus := none, seq := [], busy := false, trace := s.trace ++ [.writeFailed v],
      resp := some ⟨.transportFail, i⟩, responses := s.responses ++ [⟨.transportFail, i⟩], macroRest := [] }

/-- R15, R18: when SEQ is empty the block answers `ST_OK` with information 0 and is idle; nothing else changes. -/
def Obligations.EmptySeqAnswersOk : Prop :=
  ∀ s : State, between s → s.seq = [] →
    step s = .next { ticked s with busy := false, resp := some ⟨.ok, 0⟩,
                                   responses := s.responses ++ [⟨.ok, 0⟩] }

/-- R156, U4: as long as the transport has not answered, the block waits: any number of looks changes nothing but the
script itself. There is no timeout and no retry. -/
def Obligations.UnansweredWriteHoldsTheBlock : Prop :=
  ∀ (n : Nat) (s : State) (rest : List Answer), s.busy = true → s.delay = none → s.busValid = true →
    s.rst = [] → s.resp = none → s.answers = List.replicate n .notYet ++ rest →
    run n s = .next { s with answers := rest }

/-- R130, R160: the host's turn, when the block is idle and nothing is on the port: it presents the next request of its
macro, or waits, or takes its next macro, or does nothing. That the host is a plan of macros which it carries out without
further delay is the model's choice (log entry 5); R160 lets it wait any time. Its wait is an aside, not an item of the
trace (log entry 8). -/
def Obligations.HostTakesItsTurn : Prop :=
  ∀ s : State, s.rstNow = false → s.busy = false → s.reqValid = false →
    (∀ w rest, s.macroRest = .request w :: rest →
      step s = .next { ticked s with macroRest := rest, reqValid := true, reqWord := w }) ∧
    (∀ t rest, s.macroRest = .wait t :: rest →
      ∃ e, step s = .next { ticked s with macroRest := rest, asides := s.asides ++ [.hostWait s.trace.length t],
                                          waited := s.waited + t + e, draws := s.draws + 1 }) ∧
    (∀ m ms, s.macroRest = [] → s.plan = m :: ms → step s = .next { ticked s with macroRest := m, plan := ms }) ∧
    (s.macroRest = [] → s.plan = [] → step s = .next (ticked s))

/-! ### Reset -/

/-- R24, R170: after reset, for any parameters: `BL` = `BL_RESET`, `BUSY` 0, `SEQ` empty, `req_ready` 1, `resp_valid` 0,
`bus_valid` 0, no bus write made and no delay running. -/
def Obligations.ResetState : Prop :=
  (∀ c : Config, (State.resetWith c).cfg = c ∧ (State.resetWith c).bl = c.blReset ∧
    (State.resetWith c).busy = false ∧ (State.resetWith c).seq = [] ∧ (State.resetWith c).reqReady = true ∧
    (State.resetWith c).resp = none ∧ (State.resetWith c).bus = none ∧
    (State.resetWith c).trace = [] ∧ (State.resetWith c).delay = none) ∧
  State.reset = State.resetWith Config.standard

/-- R24 with R175 and U6: `rst` high at a step puts the block into the reset state, gives no response and makes no bus
write; a request in progress is dropped. That the model gives reset in mid-request this meaning, that the host then gives
up its macro, and that on an idle block it keeps its macro and what it drives, is the model's choice (log entry 6). -/
def Obligations.ResetInputResetsTheBlock : Prop :=
  ∀ s : State, s.rstNow = true → ∃ t, step s = .next t ∧
    t.bl = s.cfg.blReset ∧ t.busy = false ∧ t.seq = [] ∧ t.delay = none ∧ t.reqReady = true ∧ t.resp = none ∧
    t.bus = none ∧ t.cfg = s.cfg ∧ t.responses = s.responses ∧ t.trace = s.trace ∧
    t.asides = s.asides ++ (s.bus.elim [] fun v => [.cutWrite s.trace.length v]) ∧
    t.plan = s.plan ∧ t.macroRest = (if s.busy then [] else s.macroRest) ∧ t.reqValid = s.reqValid ∧
    t.reqWord = s.reqWord ∧ t.answers = s.answers ∧ t.waited = s.waited

/-! ### Invariants and whole-machine rules -/

/-- The invariant holds after reset, for any well-formed parameters, the defaults among them. -/
def Obligations.InvariantHoldsAtReset : Prop :=
  (∀ c : Config, c.wellFormed = true → (State.resetWith c).Inv) ∧ State.reset.Inv

/-- R13, R15, R16, R18, R19, R3, R71: every step from every state with the invariant keeps it: an idle block has nothing
outstanding; an outstanding write is the head of SEQ; a running delay is the head's and TMR holds at least its bound; SEQ
is never longer than 85; no bus byte has the spare bit, be its write answered with success or failure or cut by reset; the
response comes with an idle block; the gaps of the trace and the host's waits have really passed; every aside stands
within the trace. -/
def Obligations.EveryStepKeepsTheInvariant : Prop :=
  ∀ s t : State, s.Inv → step s = .next t → t.Inv

/-- R12, R22: BL changes only by the acceptance of a BL request, to its operand, or by reset. -/
def Obligations.OnlyBlRequestAndResetWriteBl : Prop :=
  ∀ s t : State, step s = .next t → t.bl = s.bl ∨ (s.rstNow = true ∧ t.bl = s.cfg.blReset) ∨
    (s.busy = false ∧ s.reqValid = true ∧ decode s.reqWord = .bl t.bl)

/-- R2, R14: the parameters, `DEVADDR` among them, never change. -/
def Obligations.ParametersNeverChange : Prop :=
  ∀ (n : Nat) (s t : State), run n s = .next t → t.cfg = s.cfg ∧ t.busAddr = s.busAddr

/-- R40, R160: the sequencer alone writes the trace: a step adds at most one item and changes none, and adds one only when
the block was busy and not reset; a bus item is the outstanding write, added when the transport has answered it; a gap is
the delay that was running. What the model notes beside the trace is a write cut by reset or a wait of the host (log
entries 6, 8). -/
def Obligations.TraceGrowsByAnsweredWrites : Prop :=
  ∀ s t : State, step s = .next t → ∃ (items : List TraceItem) (more : List Aside),
    t.trace = s.trace ++ items ∧ t.asides = s.asides ++ more ∧ items.length ≤ 1 ∧
    (items ≠ [] → s.busy = true ∧ s.rstNow = false) ∧
    (∀ v, TraceItem.wrote v ∈ items → s.bus = some v ∧ s.peekAnswer = .ok) ∧
    (∀ v, TraceItem.writeFailed v ∈ items → s.bus = some v ∧ ∃ i, s.peekAnswer = .fail i) ∧
    (∀ u, TraceItem.gap u ∈ items → s.delay = some u) ∧
    (∀ p v, Aside.cutWrite p v ∈ more → s.rstNow = true ∧ s.bus = some v ∧ p = s.trace.length) ∧
    (∀ p u, Aside.hostWait p u ∈ more → s.rstNow = false ∧ s.busy = false ∧ p = s.trace.length ∧
      ∃ rest, s.macroRest = .wait u :: rest)

/-- R40, R19: a bus write is raised only by a busy block with no write outstanding and no delay running, and it is the
write at the head of SEQ. -/
def Obligations.WritesAreIssuedOneAtATime : Prop :=
  ∀ (s t : State) (v : Byte), step s = .next t → s.bus = none → t.bus = some v →
    s.busy = true ∧ s.delay = none ∧ ∃ rest, s.seq = .write v :: rest ∧ t.seq = s.seq

/-- R18: outside reset, a step gives a response exactly when it clears BUSY, one, with the pulse on the response port; no
other step gives one. -/
def Obligations.OneResponsePerRequest : Prop :=
  ∀ s t : State, s.rstNow = false → step s = .next t →
    (t.respValid = true ↔ s.busy = true ∧ t.busy = false) ∧ t.responses = s.responses ++ t.resp.toList

/-- R13, R17: BUSY rises only by the acceptance of the request on the port, whose word is then in the latch. That
the request is then off the port is log entry 5. -/
def Obligations.BusyRisesByAcceptance : Prop :=
  ∀ s t : State, step s = .next t → s.busy = false → t.busy = true →
    s.reqValid = true ∧ s.rstNow = false ∧ t.op ++ t.arg = s.reqWord ∧ t.reqValid = false

/-- R21, R155: what the block does next does not depend on its earlier responses, on its latch or on what has been
observed: two states that differ only there give the same further trace and the same further responses; and after any
step what is on the response port does not tell of them either. -/
def Obligations.ThePastIsForgotten : Prop :=
  ∀ (n : Nat) (s s' t : State), sameBut s s' → run n s = .next t →
    ∃ t', run n s' = .next t' ∧ sameBut t t' ∧ ∃ (items : List TraceItem) (rs : List Response),
      t.trace = s.trace ++ items ∧ t'.trace = s'.trace ++ items ∧
      t.responses = s.responses ++ rs ∧ t'.responses = s'.responses ++ rs ∧ (n ≠ 0 → t'.resp = t.resp)

/-! ### Whole requests -/

/-- R15, R70, R71, R152: the machine refines the pseudocode: from an accepted request, whatever the transport answers and
however long it takes, if the pseudocode's run on those answers ends, the machine reaches the response with exactly that
trace and that response, BL untouched. -/
def Obligations.MachineRefinesThePseudocode : Prop :=
  ∀ (s : State) (tr : List TraceItem) (r : Response), s.busy = true → s.delay = none → s.bus = none →
    (∀ b ∈ s.rst, b = false) → runOps s.cfg s.seq (finalAnswers s.answers) = some (tr, r) →
    ∃ n t, run n s = .next t ∧ t.trace = s.trace ++ tr ∧ t.responses = s.responses ++ [r] ∧ t.busy = false ∧
      t.seq = [] ∧ t.bus = none ∧ t.resp = some r ∧ t.bl = s.bl ∧ t.op = s.op ∧ t.arg = s.arg ∧
      s.waited + gapTotal tr ≤ t.waited

/-- R41, R18, R72, R90, R100 to R107, R120, R122, R54: every request, on the port of an idle block with a transport that
succeeds, runs to its response `ST_OK` with exactly its trace, every delay waited for, and BL as the request leaves it. -/
def Obligations.EveryRequestRunsToOk : Prop :=
  ∀ (s : State) (rest : List Answer), ready s →
    s.answers = List.replicate (writeCount (decode s.reqWord)) .ok ++ rest →
    ∃ n t, run n s = .next t ∧
      t.trace = s.trace ++ okTrace s.cfg (requestSeq s.cfg s.bl (decode s.reqWord)) ∧
      t.responses = s.responses ++ [⟨.ok, 0⟩] ∧ t.resp = some ⟨.ok, 0⟩ ∧ t.bus = none ∧ t.busy = false ∧
      t.bl = backlightAfter (decode s.reqWord) s.bl ∧ t.op ++ t.arg = s.reqWord ∧
      t.answers = rest ∧ t.macroRest = s.macroRest ∧ t.plan = s.plan ∧
      s.waited + leastTime s.cfg (decode s.reqWord) ≤ t.waited

/-- R154, R152, R122: the failure of write `k` of any request is precise: every write before it was made once with its
delays, the failing one attempted once, none after it; one response with the transport's information; BL is not rolled
back; the block is idle. -/
def Obligations.FailureIsPreciseAtABusWrite : Prop :=
  ∀ (s : State) (k i : Nat) (rest : List Answer), ready s → k < writeCount (decode s.reqWord) →
    s.answers = List.replicate k .ok ++ .fail i :: rest → i < 2 ^ s.cfg.infoW →
    ∃ n t, run n s = .next t ∧
      t.trace = s.trace ++ failTrace s.cfg (requestSeq s.cfg s.bl (decode s.reqWord)) k ∧
      t.responses = s.responses ++ [⟨.transportFail, i⟩] ∧ t.resp = some ⟨.transportFail, i⟩ ∧ t.bus = none ∧
      t.busy = false ∧ t.seq = [] ∧ t.bl = backlightAfter (decode s.reqWord) s.bl ∧
      t.answers = rest ∧ t.macroRest = [] ∧ t.plan = s.plan

/-- R180 (the table; that the controller takes a nibble at the fall of Enable is general knowledge, G7): Enable on the
backpack and the nibbles taken after the failure of write `k` of a command byte, by whether the failed write reached the
device, if Enable was low before. -/
def Obligations.WhatAFailureLeavesBehind : Prop :=
  ∀ (s : State) (b before : Byte) (k i : Nat) (rest : List Answer), ready s → decode s.reqWord = .cmd b → k < 6 →
    s.answers = List.replicate k .ok ++ .fail i :: rest → enableHigh s.cfg before = false →
    ∃ n t items, run n s = .next t ∧ t.busy = false ∧
      t.responses = s.responses ++ [⟨.transportFail, infoPort s.cfg i⟩] ∧ t.trace = s.trace ++ items ∧
      ∀ reached : Bool,
        enableHigh s.cfg (latchAfter before (reachedBytes [reached] (items.map .block))) =
          enableAfterFailure reached k ∧
        (strobes s.cfg before (reachedBytes [reached] (items.map .block))).length = takenAfterFailure reached k

/-- R75, R90 (with G7): a command or data byte is two strobes, the high nibble and then the low one, with its register
select. -/
def Obligations.ByteIsTwoStrobes : Prop :=
  ∀ (i : Instr) (s : State) (b before : Byte), s.cfg.wellFormed = true → s.busy = false →
    enableHigh s.cfg before = false → commandByte s.cfg i = some b ∨ i = .dat b →
    ∃ t, exec i s = .next t ∧ strobes s.cfg before (opsBytes t.seq) =
      [(i == .dat b, b.extractLsb' 4 4), (i == .dat b, b.extractLsb' 0 4)]

/-- R33, R122: the raw write of a BL request makes no Enable pulse, whatever the backpack held, if Enable was low. -/
def Obligations.BlMakesNoStrobe : Prop :=
  ∀ (s : State) (v : Bool) (before : Byte), s.cfg.wellFormed = true → s.busy = false →
    enableHigh s.cfg before = false →
    ∃ t, exec (.bl v) s = .next t ∧ strobes s.cfg before (opsBytes t.seq) = [] ∧
      enableHigh s.cfg (latchAfter before (opsBytes t.seq)) = false ∧
      ∀ x ∈ opsBytes t.seq, x &&& ~~~s.cfg.blMask = 0

/-- R183, R20: a clocked build counts the least whole number of cycles that last at least the delay. -/
def Obligations.CyclesRoundUp : Prop :=
  ∀ (c : Config) (t n : Nat), delayCycles c t ≤ n ↔ t * c.clkHz ≤ n * 1000000

/-! ### The host macros -/

/-- R132, R133, R137, R138, R139, R140: the fixed request lists of the session's parameterless operations, with their
waits; display-on with every cursor change. -/
def Obligations.FixedMacrosExpand : Prop :=
  ∀ (c : Config) (h : HostConfig), c.wellFormed = true →
    Macro.homew.expand c h = [word 0x400, .wait 1000000] ∧
    Macro.clear.expand c h = [word 0x300, word 0x400, .wait 1000000] ∧
    (Macro.cursor .hidden).expand c h = [word 0x604, .wait 50000] ∧
    (Macro.cursor .solid).expand c h = [word 0x606, .wait 50000] ∧
    (Macro.cursor .blinking).expand c h = [word (if h.blinkWithCursor then 0x607 else 0x605), .wait 50000] ∧
    (Macro.display true).expand c h = [word 0x604] ∧ (Macro.display false).expand c h = [word 0x600] ∧
    Macro.movl.expand c h = [word 0x708] ∧ Macro.movr.expand c h = [word 0x70C] ∧
    (Macro.backlight true).expand c h = [word 0xC01] ∧ (Macro.backlight false).expand c h = [word 0xC00]

/-- R131, R134, R135, R143, R144: GOTO, PUTS, PUTC send exactly one set-address command for the clamped row, and one data
write per character, remapped; PUTSC sends the data writes alone. A sum above 0x7F is cut to 7 bits (log entry 9). -/
def Obligations.TextMacrosExpand : Prop :=
  ∀ (c : Config) (h : HostConfig) (row col : Nat) (text : List Char) (ch : Char),
    let addr := word (0xA00 + address h row col % 128)
    let chars := text.map fun x => word (0x200 + code h x)
    (Macro.goto row col).expand c h = [addr] ∧
    (Macro.puts text row col).expand c h = addr :: chars ∧
    (Macro.putsc text).expand c h = chars ∧
    (Macro.putc ch row col).expand c h = [addr, word (0x200 + code h ch)]

/-- R136: DEFCHAR masks the slot to 3 bits, sends set-CGRAM-address (slot<<3) and the 8 pattern bytes as they are, and
nothing after them; slot 9 is slot 1; the tracked fields stay. -/
def Obligations.DefcharMasksTheSlot : Prop :=
  ∀ (c : Config) (h : HostConfig) (s : Session) (slot : Nat) (p0 p1 p2 p3 p4 p5 p6 p7 : Byte),
    (Macro.defchar slot p0 p1 p2 p3 p4 p5 p6 p7).expand c h =
      word (0x900 + 8 * (slot % 8)) :: ([p0, p1, p2, p3, p4, p5, p6, p7].map fun p => word (0x200 + p.toNat)) ∧
    (Macro.defchar slot p0 p1 p2 p3 p4 p5 p6 p7).track h s = s

/-- R131 to R135, R137 to R140, R143, R144: what each macro but DEFCHAR does to the session's tracked fields (host
variables), and that it leaves the others. What PUTC does to the position is open (N22, log entry 9). -/
def Obligations.TrackedPosition : Prop :=
  ∀ (h : HostConfig) (s : Session) (row col : Nat) (text : List Char) (ch : Char) (mode : CursorMode) (on : Bool),
    h.wellFormed = true →
    let t := (Macro.goto row col).track h s
    t = { s with trow := t.trow, tcol := col } ∧
    (row < min h.rows 4 → t.trow = row) ∧ (min h.rows 4 ≤ row → t.trow = min h.rows 4 - 1) ∧
    Macro.homew.track h s = { s with trow := 0, tcol := 0 } ∧
    Macro.clear.track h s = { s with trow := 0, tcol := 0 } ∧
    (Macro.puts text row col).track h s = { t with tcol := col + text.length } ∧
    (Macro.putsc text).track h s = { s with tcol := s.tcol + text.length } ∧
    (Macro.putc ch row col).track h s =
      { s with trow := if h.putcSetsRow then t.trow else s.trow,
               tcol := if h.putcFromGivenCol then col + 1 else s.tcol + 1 } ∧
    (Macro.cursor mode).track h s = { s with cursor := mode } ∧
    (Macro.display on).track h s = { s with displayOn := on } ∧
    Macro.movl.track h s = { s with tcol := s.tcol - 1 } ∧ Macro.movr.track h s = { s with tcol := s.tcol + 1 } ∧
    (Macro.backlight on).track h s = { s with backlightOn := on }

/-- R171, R172, R176, R177: INIT followed by any list of host macros keeps the host's duties, for parameters under which no
two commands share a byte. -/
def Obligations.MacrosKeepTheHostsDuties : Prop :=
  ∀ (c : Config) (h : HostConfig) (ms : List Macro), distinctCommands c →
    hostObeys c (.item (req .init) :: ms.flatMap (Macro.acts c h)) = true

/-- The acts of a macro are its requests and waits; only what the duties must know is added (R138). -/
def Obligations.ActsAreTheExpansion : Prop :=
  ∀ (c : Config) (h : HostConfig) (m : Macro), (m.acts c h).map HostAct.toItem = m.expand c h

/-- R177, R137: the wait is owed: after INIT and any macros (cursor changes and DISPLAY on or off among them), a DISP with
any flags, followed at once by a data request, breaks the duty, and with a wait of `t` between the two it is kept exactly
if `t` is at least `T_CURSOR_MODE`. -/
def Obligations.CursorChangeOwesItsWait : Prop :=
  ∀ (c : Config) (h : HostConfig) (ms : List Macro) (d cu b : Bool) (ch : Byte) (t : Nat), c.wellFormed = true →
    distinctCommands c →
    let before := HostAct.item (req .init) :: ms.flatMap (Macro.acts c h)
    hostObeys c (before ++ [.item (req (.disp d cu b)), .item (req (.dat ch))]) = false ∧
    hostObeys c (before ++ [.item (req (.disp d cu b)), .item (.wait t), .item (req (.dat ch))]) =
      decide (c.tCursorMode ≤ t)

/-! ### The timeline -/

/-- The observer's order of the trace and the asides (log entry 8): from every state with the invariant, a step adds at
most one thing to it, at its end. -/
def Obligations.TimelineGrowsAtItsEnd : Prop :=
  ∀ s t : State, s.Inv → step s = .next t →
    ∃ more : List TimelineItem, t.timeline = s.timeline ++ more ∧ more.length ≤ 1 ∧
      ∀ x, TimelineItem.block x ∈ more → t.trace = s.trace ++ [x]
end

