-- ==== Sys2Proof/Laws/Encoding.lean ====
section
/-! SUPPORT. The request word's two halves, the nibbles of a byte, and what well-formed parameters give (R3, section
4 of spec/00_scope.md). -/

namespace Sys2Proof

theorem getLsbD_mkWord (op : BitVec 4) (arg : Byte) (k : Nat) :
    (mkWord op arg).getLsbD k = if k < 8 then arg.getLsbD k else op.getLsbD (k - 8) :=
  BitVec.getLsbD_append (x := op) (y := arg)

@[simp] theorem opOf_mkWord (op : BitVec 4) (arg : Byte) : opOf (mkWord op arg) = op := by
  apply BitVec.eq_of_getLsbD_eq
  intro i hi
  simp [opOf, getLsbD_mkWord, hi]

@[simp] theorem argOf_mkWord (op : BitVec 4) (arg : Byte) : argOf (mkWord op arg) = arg := by
  apply BitVec.eq_of_getLsbD_eq
  intro i hi
  simp [argOf, getLsbD_mkWord, hi]

/-- A word is its two halves (R50). -/
theorem mkWord_opOf_argOf (w : ReqWord) : mkWord (opOf w) (argOf w) = w := by
  apply BitVec.eq_of_getLsbD_eq
  intro i hi
  simp only [getLsbD_mkWord, opOf, argOf, BitVec.getLsbD_extractLsb']
  split
  · simp [*]
  · rw [show 8 + (i - 8) = i by omega, show i - 8 < 4 by omega |> decide_eq_true]
    simp

theorem isControlMask_cases (m : Byte) (h : isControlMask m = true) :
    m = 0x01 ∨ m = 0x02 ∨ m = 0x04 ∨ m = 0x08 := by
  simp only [isControlMask, Bool.or_eq_true, beq_iff_eq] at h
  tauto

/-- R3, from the check. -/
theorem Config.wellFormed_masks (c : Config) (h : c.wellFormed = true) :
    isControlMask c.blMask = true ∧ isControlMask c.rsMask = true ∧ isControlMask c.enMask = true ∧
      c.blMask ≠ c.rsMask ∧ c.blMask ≠ c.enMask ∧ c.rsMask ≠ c.enMask := by
  simp only [Config.wellFormed, Config.masksOk, Bool.and_eq_true, bne_iff_ne] at h
  tauto

/-- The values the source gives, from the check. -/
theorem Config.wellFormed_source (c : Config) (h : c.wellFormed = true) :
    c.opDdram = 0x80 ∧ c.initReset8 = 0x03 ∧ c.initSet4 = 0x02 ∧ c.tSettle = 200 ∧ c.tEnHigh = 500 ∧
      c.tEnLow = 200 ∧ c.tInitReset = 100000 ∧ c.tInitDone = 200000 ∧ c.tHomeClear = 1000000 ∧
      c.tCursorMode = 50000 := by
  simp only [Config.wellFormed, Config.sourceBytesOk, Config.timesOk, Bool.and_eq_true, beq_iff_eq] at h
  tauto

namespace Machine

/-- The high nibble in bits 7:4 (R34). -/
theorem hiNibble_placed : ∀ b : Byte, (hiNibble b).setWidth 8 <<< 4 = b &&& 0xF0 := by decide

/-- The low nibble in bits 7:4 (R34). -/
theorem loNibble_placed : ∀ b : Byte, (loNibble b).setWidth 8 <<< 4 = (b <<< 4) &&& 0xF0 := by decide

@[simp] theorem sel_true (m : Byte) : sel true m = m := rfl

@[simp] theorem sel_false (m : Byte) : sel false m = 0#8 := rfl

theorem sel_and (v : Bool) (a m x : Byte) (h : a &&& m = x) : sel v a &&& m = sel v x := by
  cases v
  · simp
  · simpa using h

/-! ### The parts of the bus byte do not overlap (R3, R55) -/

theorem or_and_right (a b m : Byte) : (a ||| b) &&& m = (a &&& m) ||| (b &&& m) := by
  ext i hi
  simp [Bool.and_or_distrib_right]

theorem isControlMask_mem (m : Byte) (h : isControlMask m = true) : m ∈ [0x01#8, 0x02, 0x04, 0x08] := by
  rcases isControlMask_cases m h with rfl | rfl | rfl | rfl <;> decide

theorem controlMasks_apart : ∀ a ∈ [0x01#8, 0x02, 0x04, 0x08], ∀ b ∈ [0x01#8, 0x02, 0x04, 0x08], a ≠ b →
    a &&& ~~~b = a ∧ a &&& b = 0#8 := by decide

theorem controlMask_low : ∀ a ∈ [0x01#8, 0x02, 0x04, 0x08], a &&& 0xF0#8 = 0#8 ∧ a ≠ 0#8 := by decide

theorem placedNibble_apart : ∀ n : Nibble, ∀ b ∈ [0x01#8, 0x02, 0x04, 0x08],
    (n.setWidth 8 <<< 4) &&& ~~~b = n.setWidth 8 <<< 4 ∧ (n.setWidth 8 <<< 4) &&& b = 0#8 := by decide

theorem placedNibble_high : ∀ n : Nibble, (n.setWidth 8 <<< 4) &&& 0xF0#8 = n.setWidth 8 <<< 4 := by decide

theorem sel_zero (v : Bool) : sel v 0#8 = 0#8 := by cases v <;> rfl

/-- Each part of the bus byte is read back by its mask: backlight, register select, Enable, nibble. -/
theorem busByte_parts (c : Config) (h : c.wellFormed = true) (rs bl en : Bool) (n : Nibble) :
    busByte c rs bl en n &&& c.blMask = sel bl c.blMask ∧ busByte c rs bl en n &&& c.rsMask = sel rs c.rsMask ∧
      busByte c rs bl en n &&& c.enMask = sel en c.enMask ∧
      busByte c rs bl en n &&& 0xF0#8 = n.setWidth 8 <<< 4 := by
  obtain ⟨hb, hr, he, hbr, hbe, hre⟩ := c.wellFormed_masks h
  have hb := isControlMask_mem _ hb
  have hr := isControlMask_mem _ hr
  have he := isControlMask_mem _ he
  refine ⟨?_, ?_, ?_, ?_⟩
  · simp only [busByte, or_and_right, (placedNibble_apart n _ hb).2, sel_and _ _ _ _ BitVec.and_self,
      sel_and _ _ _ _ (controlMasks_apart _ hr _ hb hbr.symm).2,
      sel_and _ _ _ _ (controlMasks_apart _ he _ hb hbe.symm).2, sel_zero]
    simp
  · simp only [busByte, or_and_right, (placedNibble_apart n _ hr).2, sel_and _ _ _ _ BitVec.and_self,
      sel_and _ _ _ _ (controlMasks_apart _ hb _ hr hbr).2,
      sel_and _ _ _ _ (controlMasks_apart _ he _ hr hre.symm).2, sel_zero]
    simp
  · simp only [busByte, or_and_right, (placedNibble_apart n _ he).2, sel_and _ _ _ _ BitVec.and_self,
      sel_and _ _ _ _ (controlMasks_apart _ hb _ he hbe).2,
      sel_and _ _ _ _ (controlMasks_apart _ hr _ he hre).2, sel_zero]
    simp
  · simp only [busByte, or_and_right, placedNibble_high, sel_and _ _ _ _ (controlMask_low _ hb).1,
      sel_and _ _ _ _ (controlMask_low _ hr).1, sel_and _ _ _ _ (controlMask_low _ he).1, sel_zero]
    simp

/-- The write that clears Enable carries the byte of the first write: "equals base by 00_scope.md rule R3" (R72). -/
theorem busByte_enable_cleared (c : Config) (h : c.wellFormed = true) (rs bl : Bool) (n : Nibble) :
    busByte c rs bl false n &&& ~~~c.enMask = busByte c rs bl false n := by
  obtain ⟨hb, hr, he, _, hbe, hre⟩ := c.wellFormed_masks h
  have hb := isControlMask_mem _ hb
  have hr := isControlMask_mem _ hr
  have he := isControlMask_mem _ he
  simp only [busByte, or_and_right, (placedNibble_apart n _ he).1,
    sel_and _ _ _ _ (controlMasks_apart _ hb _ he hbe).1, sel_and _ _ _ _ (controlMasks_apart _ hr _ he hre).1]
  simp

/-- The write that sets Enable is the bus byte with Enable (R55, R72). -/
theorem busByte_enable_set (c : Config) (rs bl : Bool) (n : Nibble) :
    busByte c rs bl false n ||| c.enMask = busByte c rs bl true n := by
  simp [busByte]

end Machine

end Sys2Proof
end

