-- ==== Sys2Proof/Laws/State.lean ====
section
/-! SUPPORT. The small lemmas of the state's updates: one for each field of each named update, true by definition, so
that no later proof unfolds a record update. -/

namespace Sys2Proof.Machine

variable (s : State)

/-! ### accept -/

@[simp] theorem State.accept_cfg (ops : List MicroOp) : (s.accept ops).cfg = s.cfg := rfl
@[simp] theorem State.accept_bl (ops : List MicroOp) : (s.accept ops).bl = s.bl := rfl
@[simp] theorem State.accept_busy (ops : List MicroOp) : (s.accept ops).busy = true := rfl
@[simp] theorem State.accept_op (ops : List MicroOp) : (s.accept ops).op = opOf s.reqWord := rfl
@[simp] theorem State.accept_arg (ops : List MicroOp) : (s.accept ops).arg = argOf s.reqWord := rfl
@[simp] theorem State.accept_seq (ops : List MicroOp) : (s.accept ops).seq = ops := rfl
@[simp] theorem State.accept_tmr (ops : List MicroOp) : (s.accept ops).tmr = s.tmr := rfl
@[simp] theorem State.accept_delay (ops : List MicroOp) : (s.accept ops).delay = s.delay := rfl
@[simp] theorem State.accept_reqValid (ops : List MicroOp) : (s.accept ops).reqValid = false := rfl
@[simp] theorem State.accept_reqWord (ops : List MicroOp) : (s.accept ops).reqWord = s.reqWord := rfl
@[simp] theorem State.accept_resp (ops : List MicroOp) : (s.accept ops).resp = s.resp := rfl
@[simp] theorem State.accept_bus (ops : List MicroOp) : (s.accept ops).bus = s.bus := rfl
@[simp] theorem State.accept_rst (ops : List MicroOp) : (s.accept ops).rst = s.rst := rfl
@[simp] theorem State.accept_macroRest (ops : List MicroOp) : (s.accept ops).macroRest = s.macroRest := rfl
@[simp] theorem State.accept_plan (ops : List MicroOp) : (s.accept ops).plan = s.plan := rfl
@[simp] theorem State.accept_answers (ops : List MicroOp) : (s.accept ops).answers = s.answers := rfl
@[simp] theorem State.accept_draws (ops : List MicroOp) : (s.accept ops).draws = s.draws := rfl
@[simp] theorem State.accept_trace (ops : List MicroOp) : (s.accept ops).trace = s.trace := rfl
@[simp] theorem State.accept_asides (ops : List MicroOp) : (s.accept ops).asides = s.asides := rfl
@[simp] theorem State.accept_responses (ops : List MicroOp) : (s.accept ops).responses = s.responses := rfl
@[simp] theorem State.accept_waited (ops : List MicroOp) : (s.accept ops).waited = s.waited := rfl

/-! ### writeBl -/

@[simp] theorem State.writeBl_cfg (v : Bool) : (s.writeBl v).cfg = s.cfg := rfl
@[simp] theorem State.writeBl_bl (v : Bool) : (s.writeBl v).bl = v := rfl
@[simp] theorem State.writeBl_busy (v : Bool) : (s.writeBl v).busy = s.busy := rfl
@[simp] theorem State.writeBl_op (v : Bool) : (s.writeBl v).op = s.op := rfl
@[simp] theorem State.writeBl_arg (v : Bool) : (s.writeBl v).arg = s.arg := rfl
@[simp] theorem State.writeBl_seq (v : Bool) : (s.writeBl v).seq = s.seq := rfl
@[simp] theorem State.writeBl_tmr (v : Bool) : (s.writeBl v).tmr = s.tmr := rfl
@[simp] theorem State.writeBl_delay (v : Bool) : (s.writeBl v).delay = s.delay := rfl
@[simp] theorem State.writeBl_reqValid (v : Bool) : (s.writeBl v).reqValid = s.reqValid := rfl
@[simp] theorem State.writeBl_reqWord (v : Bool) : (s.writeBl v).reqWord = s.reqWord := rfl
@[simp] theorem State.writeBl_resp (v : Bool) : (s.writeBl v).resp = s.resp := rfl
@[simp] theorem State.writeBl_bus (v : Bool) : (s.writeBl v).bus = s.bus := rfl
@[simp] theorem State.writeBl_rst (v : Bool) : (s.writeBl v).rst = s.rst := rfl
@[simp] theorem State.writeBl_macroRest (v : Bool) : (s.writeBl v).macroRest = s.macroRest := rfl
@[simp] theorem State.writeBl_plan (v : Bool) : (s.writeBl v).plan = s.plan := rfl
@[simp] theorem State.writeBl_answers (v : Bool) : (s.writeBl v).answers = s.answers := rfl
@[simp] theorem State.writeBl_draws (v : Bool) : (s.writeBl v).draws = s.draws := rfl
@[simp] theorem State.writeBl_trace (v : Bool) : (s.writeBl v).trace = s.trace := rfl
@[simp] theorem State.writeBl_asides (v : Bool) : (s.writeBl v).asides = s.asides := rfl
@[simp] theorem State.writeBl_responses (v : Bool) : (s.writeBl v).responses = s.responses := rfl
@[simp] theorem State.writeBl_waited (v : Bool) : (s.writeBl v).waited = s.waited := rfl

/-! ### issueWrite -/

@[simp] theorem State.issueWrite_cfg (v : Byte) : (s.issueWrite v).cfg = s.cfg := rfl
@[simp] theorem State.issueWrite_bl (v : Byte) : (s.issueWrite v).bl = s.bl := rfl
@[simp] theorem State.issueWrite_busy (v : Byte) : (s.issueWrite v).busy = s.busy := rfl
@[simp] theorem State.issueWrite_op (v : Byte) : (s.issueWrite v).op = s.op := rfl
@[simp] theorem State.issueWrite_arg (v : Byte) : (s.issueWrite v).arg = s.arg := rfl
@[simp] theorem State.issueWrite_seq (v : Byte) : (s.issueWrite v).seq = s.seq := rfl
@[simp] theorem State.issueWrite_tmr (v : Byte) : (s.issueWrite v).tmr = s.tmr := rfl
@[simp] theorem State.issueWrite_delay (v : Byte) : (s.issueWrite v).delay = s.delay := rfl
@[simp] theorem State.issueWrite_reqValid (v : Byte) : (s.issueWrite v).reqValid = s.reqValid := rfl
@[simp] theorem State.issueWrite_reqWord (v : Byte) : (s.issueWrite v).reqWord = s.reqWord := rfl
@[simp] theorem State.issueWrite_resp (v : Byte) : (s.issueWrite v).resp = s.resp := rfl
@[simp] theorem State.issueWrite_bus (v : Byte) : (s.issueWrite v).bus = some v := rfl
@[simp] theorem State.issueWrite_rst (v : Byte) : (s.issueWrite v).rst = s.rst := rfl
@[simp] theorem State.issueWrite_macroRest (v : Byte) : (s.issueWrite v).macroRest = s.macroRest := rfl
@[simp] theorem State.issueWrite_plan (v : Byte) : (s.issueWrite v).plan = s.plan := rfl
@[simp] theorem State.issueWrite_answers (v : Byte) : (s.issueWrite v).answers = s.answers := rfl
@[simp] theorem State.issueWrite_draws (v : Byte) : (s.issueWrite v).draws = s.draws := rfl
@[simp] theorem State.issueWrite_trace (v : Byte) : (s.issueWrite v).trace = s.trace := rfl
@[simp] theorem State.issueWrite_asides (v : Byte) : (s.issueWrite v).asides = s.asides := rfl
@[simp] theorem State.issueWrite_responses (v : Byte) : (s.issueWrite v).responses = s.responses := rfl
@[simp] theorem State.issueWrite_waited (v : Byte) : (s.issueWrite v).waited = s.waited := rfl

/-! ### startDelay -/

@[simp] theorem State.startDelay_cfg (t : Nat) : (s.startDelay t).cfg = s.cfg := rfl
@[simp] theorem State.startDelay_bl (t : Nat) : (s.startDelay t).bl = s.bl := rfl
@[simp] theorem State.startDelay_busy (t : Nat) : (s.startDelay t).busy = s.busy := rfl
@[simp] theorem State.startDelay_op (t : Nat) : (s.startDelay t).op = s.op := rfl
@[simp] theorem State.startDelay_arg (t : Nat) : (s.startDelay t).arg = s.arg := rfl
@[simp] theorem State.startDelay_seq (t : Nat) : (s.startDelay t).seq = s.seq := rfl
@[simp] theorem State.startDelay_tmr (t : Nat) : (s.startDelay t).tmr = t + Config.extraDelay s.draws := rfl
@[simp] theorem State.startDelay_delay (t : Nat) : (s.startDelay t).delay = some t := rfl
@[simp] theorem State.startDelay_reqValid (t : Nat) : (s.startDelay t).reqValid = s.reqValid := rfl
@[simp] theorem State.startDelay_reqWord (t : Nat) : (s.startDelay t).reqWord = s.reqWord := rfl
@[simp] theorem State.startDelay_resp (t : Nat) : (s.startDelay t).resp = s.resp := rfl
@[simp] theorem State.startDelay_bus (t : Nat) : (s.startDelay t).bus = s.bus := rfl
@[simp] theorem State.startDelay_rst (t : Nat) : (s.startDelay t).rst = s.rst := rfl
@[simp] theorem State.startDelay_macroRest (t : Nat) : (s.startDelay t).macroRest = s.macroRest := rfl
@[simp] theorem State.startDelay_plan (t : Nat) : (s.startDelay t).plan = s.plan := rfl
@[simp] theorem State.startDelay_answers (t : Nat) : (s.startDelay t).answers = s.answers := rfl
@[simp] theorem State.startDelay_draws (t : Nat) : (s.startDelay t).draws = s.draws + 1 := rfl
@[simp] theorem State.startDelay_trace (t : Nat) : (s.startDelay t).trace = s.trace := rfl
@[simp] theorem State.startDelay_asides (t : Nat) : (s.startDelay t).asides = s.asides := rfl
@[simp] theorem State.startDelay_responses (t : Nat) : (s.startDelay t).responses = s.responses := rfl
@[simp] theorem State.startDelay_waited (t : Nat) : (s.startDelay t).waited = s.waited := rfl

/-! ### endDelay -/

@[simp] theorem State.endDelay_cfg (t : Nat) : (s.endDelay t).cfg = s.cfg := rfl
@[simp] theorem State.endDelay_bl (t : Nat) : (s.endDelay t).bl = s.bl := rfl
@[simp] theorem State.endDelay_busy (t : Nat) : (s.endDelay t).busy = s.busy := rfl
@[simp] theorem State.endDelay_op (t : Nat) : (s.endDelay t).op = s.op := rfl
@[simp] theorem State.endDelay_arg (t : Nat) : (s.endDelay t).arg = s.arg := rfl
@[simp] theorem State.endDelay_seq (t : Nat) : (s.endDelay t).seq = s.seq.tail := rfl
@[simp] theorem State.endDelay_tmr (t : Nat) : (s.endDelay t).tmr = 0 := rfl
@[simp] theorem State.endDelay_delay (t : Nat) : (s.endDelay t).delay = none := rfl
@[simp] theorem State.endDelay_reqValid (t : Nat) : (s.endDelay t).reqValid = s.reqValid := rfl
@[simp] theorem State.endDelay_reqWord (t : Nat) : (s.endDelay t).reqWord = s.reqWord := rfl
@[simp] theorem State.endDelay_resp (t : Nat) : (s.endDelay t).resp = s.resp := rfl
@[simp] theorem State.endDelay_bus (t : Nat) : (s.endDelay t).bus = s.bus := rfl
@[simp] theorem State.endDelay_rst (t : Nat) : (s.endDelay t).rst = s.rst := rfl
@[simp] theorem State.endDelay_macroRest (t : Nat) : (s.endDelay t).macroRest = s.macroRest := rfl
@[simp] theorem State.endDelay_plan (t : Nat) : (s.endDelay t).plan = s.plan := rfl
@[simp] theorem State.endDelay_answers (t : Nat) : (s.endDelay t).answers = s.answers := rfl
@[simp] theorem State.endDelay_draws (t : Nat) : (s.endDelay t).draws = s.draws := rfl
@[simp] theorem State.endDelay_trace (t : Nat) : (s.endDelay t).trace = s.trace ++ [.gap t] := rfl
@[simp] theorem State.endDelay_asides (t : Nat) : (s.endDelay t).asides = s.asides := rfl
@[simp] theorem State.endDelay_responses (t : Nat) : (s.endDelay t).responses = s.responses := rfl
@[simp] theorem State.endDelay_waited (t : Nat) : (s.endDelay t).waited = s.waited + s.tmr := rfl

/-! ### writeSucceeded -/

@[simp] theorem State.writeSucceeded_cfg (v : Byte) : (s.writeSucceeded v).cfg = s.cfg := rfl
@[simp] theorem State.writeSucceeded_bl (v : Byte) : (s.writeSucceeded v).bl = s.bl := rfl
@[simp] theorem State.writeSucceeded_busy (v : Byte) : (s.writeSucceeded v).busy = s.busy := rfl
@[simp] theorem State.writeSucceeded_op (v : Byte) : (s.writeSucceeded v).op = s.op := rfl
@[simp] theorem State.writeSucceeded_arg (v : Byte) : (s.writeSucceeded v).arg = s.arg := rfl
@[simp] theorem State.writeSucceeded_seq (v : Byte) : (s.writeSucceeded v).seq = s.seq := rfl
@[simp] theorem State.writeSucceeded_tmr (v : Byte) :
    (s.writeSucceeded v).tmr = s.cfg.tSettle + Config.extraDelay s.draws := rfl
@[simp] theorem State.writeSucceeded_delay (v : Byte) : (s.writeSucceeded v).delay = some s.cfg.tSettle := rfl
@[simp] theorem State.writeSucceeded_reqValid (v : Byte) : (s.writeSucceeded v).reqValid = s.reqValid := rfl
@[simp] theorem State.writeSucceeded_reqWord (v : Byte) : (s.writeSucceeded v).reqWord = s.reqWord := rfl
@[simp] theorem State.writeSucceeded_resp (v : Byte) : (s.writeSucceeded v).resp = s.resp := rfl
@[simp] theorem State.writeSucceeded_bus (v : Byte) : (s.writeSucceeded v).bus = none := rfl
@[simp] theorem State.writeSucceeded_rst (v : Byte) : (s.writeSucceeded v).rst = s.rst := rfl
@[simp] theorem State.writeSucceeded_macroRest (v : Byte) : (s.writeSucceeded v).macroRest = s.macroRest := rfl
@[simp] theorem State.writeSucceeded_plan (v : Byte) : (s.writeSucceeded v).plan = s.plan := rfl
@[simp] theorem State.writeSucceeded_answers (v : Byte) : (s.writeSucceeded v).answers = s.answers := rfl
@[simp] theorem State.writeSucceeded_draws (v : Byte) : (s.writeSucceeded v).draws = s.draws + 1 := rfl
@[simp] theorem State.writeSucceeded_trace (v : Byte) : (s.writeSucceeded v).trace = s.trace ++ [.wrote v] := rfl
@[simp] theorem State.writeSucceeded_asides (v : Byte) : (s.writeSucceeded v).asides = s.asides := rfl
@[simp] theorem State.writeSucceeded_responses (v : Byte) : (s.writeSucceeded v).responses = s.responses := rfl
@[simp] theorem State.writeSucceeded_waited (v : Byte) : (s.writeSucceeded v).waited = s.waited := rfl

/-! ### respond -/

@[simp] theorem State.respond_cfg (st : Status) (i : Nat) : (s.respond st i).cfg = s.cfg := rfl
@[simp] theorem State.respond_bl (st : Status) (i : Nat) : (s.respond st i).bl = s.bl := rfl
@[simp] theorem State.respond_busy (st : Status) (i : Nat) : (s.respond st i).busy = false := rfl
@[simp] theorem State.respond_op (st : Status) (i : Nat) : (s.respond st i).op = s.op := rfl
@[simp] theorem State.respond_arg (st : Status) (i : Nat) : (s.respond st i).arg = s.arg := rfl
@[simp] theorem State.respond_seq (st : Status) (i : Nat) : (s.respond st i).seq = s.seq := rfl
@[simp] theorem State.respond_tmr (st : Status) (i : Nat) : (s.respond st i).tmr = s.tmr := rfl
@[simp] theorem State.respond_delay (st : Status) (i : Nat) : (s.respond st i).delay = s.delay := rfl
@[simp] theorem State.respond_reqValid (st : Status) (i : Nat) : (s.respond st i).reqValid = s.reqValid := rfl
@[simp] theorem State.respond_reqWord (st : Status) (i : Nat) : (s.respond st i).reqWord = s.reqWord := rfl
@[simp] theorem State.respond_resp (st : Status) (i : Nat) : (s.respond st i).resp = some ⟨st, i⟩ := rfl
@[simp] theorem State.respond_bus (st : Status) (i : Nat) : (s.respond st i).bus = s.bus := rfl
@[simp] theorem State.respond_rst (st : Status) (i : Nat) : (s.respond st i).rst = s.rst := rfl
@[simp] theorem State.respond_macroRest (st : Status) (i : Nat) : (s.respond st i).macroRest = s.macroRest := rfl
@[simp] theorem State.respond_plan (st : Status) (i : Nat) : (s.respond st i).plan = s.plan := rfl
@[simp] theorem State.respond_answers (st : Status) (i : Nat) : (s.respond st i).answers = s.answers := rfl
@[simp] theorem State.respond_draws (st : Status) (i : Nat) : (s.respond st i).draws = s.draws := rfl
@[simp] theorem State.respond_trace (st : Status) (i : Nat) : (s.respond st i).trace = s.trace := rfl
@[simp] theorem State.respond_asides (st : Status) (i : Nat) : (s.respond st i).asides = s.asides := rfl
@[simp] theorem State.respond_responses (st : Status) (i : Nat) :
    (s.respond st i).responses = s.responses ++ [⟨st, i⟩] := rfl
@[simp] theorem State.respond_waited (st : Status) (i : Nat) : (s.respond st i).waited = s.waited := rfl

/-! ### respondOk -/

@[simp] theorem State.respondOk_cfg : s.respondOk.cfg = s.cfg := rfl
@[simp] theorem State.respondOk_bl : s.respondOk.bl = s.bl := rfl
@[simp] theorem State.respondOk_busy : s.respondOk.busy = false := rfl
@[simp] theorem State.respondOk_op : s.respondOk.op = s.op := rfl
@[simp] theorem State.respondOk_arg : s.respondOk.arg = s.arg := rfl
@[simp] theorem State.respondOk_seq : s.respondOk.seq = s.seq := rfl
@[simp] theorem State.respondOk_tmr : s.respondOk.tmr = s.tmr := rfl
@[simp] theorem State.respondOk_delay : s.respondOk.delay = s.delay := rfl
@[simp] theorem State.respondOk_reqValid : s.respondOk.reqValid = s.reqValid := rfl
@[simp] theorem State.respondOk_reqWord : s.respondOk.reqWord = s.reqWord := rfl
@[simp] theorem State.respondOk_resp : s.respondOk.resp = some ⟨.ok, 0⟩ := rfl
@[simp] theorem State.respondOk_bus : s.respondOk.bus = s.bus := rfl
@[simp] theorem State.respondOk_rst : s.respondOk.rst = s.rst := rfl
@[simp] theorem State.respondOk_macroRest : s.respondOk.macroRest = s.macroRest := rfl
@[simp] theorem State.respondOk_plan : s.respondOk.plan = s.plan := rfl
@[simp] theorem State.respondOk_answers : s.respondOk.answers = s.answers := rfl
@[simp] theorem State.respondOk_draws : s.respondOk.draws = s.draws := rfl
@[simp] theorem State.respondOk_trace : s.respondOk.trace = s.trace := rfl
@[simp] theorem State.respondOk_asides : s.respondOk.asides = s.asides := rfl
@[simp] theorem State.respondOk_responses : s.respondOk.responses = s.responses ++ [⟨.ok, 0⟩] := rfl
@[simp] theorem State.respondOk_waited : s.respondOk.waited = s.waited := rfl

/-! ### transportFailure -/

@[simp] theorem State.transportFailure_cfg (v : Byte) (i : Nat) : (s.transportFailure v i).cfg = s.cfg := rfl
@[simp] theorem State.transportFailure_bl (v : Byte) (i : Nat) : (s.transportFailure v i).bl = s.bl := rfl
@[simp] theorem State.transportFailure_busy (v : Byte) (i : Nat) : (s.transportFailure v i).busy = false := rfl
@[simp] theorem State.transportFailure_op (v : Byte) (i : Nat) : (s.transportFailure v i).op = s.op := rfl
@[simp] theorem State.transportFailure_arg (v : Byte) (i : Nat) : (s.transportFailure v i).arg = s.arg := rfl
@[simp] theorem State.transportFailure_seq (v : Byte) (i : Nat) : (s.transportFailure v i).seq = [] := rfl
@[simp] theorem State.transportFailure_tmr (v : Byte) (i : Nat) : (s.transportFailure v i).tmr = s.tmr := rfl
@[simp] theorem State.transportFailure_delay (v : Byte) (i : Nat) : (s.transportFailure v i).delay = s.delay := rfl
@[simp] theorem State.transportFailure_reqValid (v : Byte) (i : Nat) :
    (s.transportFailure v i).reqValid = s.reqValid := rfl
@[simp] theorem State.transportFailure_reqWord (v : Byte) (i : Nat) : (s.transportFailure v i).reqWord = s.reqWord := rfl
@[simp] theorem State.transportFailure_resp (v : Byte) (i : Nat) :
    (s.transportFailure v i).resp = some ⟨.transportFail, infoPort s.cfg i⟩ := rfl
@[simp] theorem State.transportFailure_bus (v : Byte) (i : Nat) : (s.transportFailure v i).bus = none := rfl
@[simp] theorem State.transportFailure_rst (v : Byte) (i : Nat) : (s.transportFailure v i).rst = s.rst := rfl
@[simp] theorem State.transportFailure_macroRest (v : Byte) (i : Nat) :
    (s.transportFailure v i).macroRest = s.macroRest := rfl
@[simp] theorem State.transportFailure_plan (v : Byte) (i : Nat) : (s.transportFailure v i).plan = s.plan := rfl
@[simp] theorem State.transportFailure_answers (v : Byte) (i : Nat) : (s.transportFailure v i).answers = s.answers := rfl
@[simp] theorem State.transportFailure_draws (v : Byte) (i : Nat) : (s.transportFailure v i).draws = s.draws := rfl
@[simp] theorem State.transportFailure_trace (v : Byte) (i : Nat) :
    (s.transportFailure v i).trace = s.trace ++ [.writeFailed v] := rfl
@[simp] theorem State.transportFailure_asides (v : Byte) (i : Nat) : (s.transportFailure v i).asides = s.asides := rfl
@[simp] theorem State.transportFailure_responses (v : Byte) (i : Nat) :
    (s.transportFailure v i).responses = s.responses ++ [⟨.transportFail, infoPort s.cfg i⟩] := rfl
@[simp] theorem State.transportFailure_waited (v : Byte) (i : Nat) : (s.transportFailure v i).waited = s.waited := rfl

/-! ### hostStops -/

@[simp] theorem State.hostStops_cfg : s.hostStops.cfg = s.cfg := rfl
@[simp] theorem State.hostStops_bl : s.hostStops.bl = s.bl := rfl
@[simp] theorem State.hostStops_busy : s.hostStops.busy = s.busy := rfl
@[simp] theorem State.hostStops_op : s.hostStops.op = s.op := rfl
@[simp] theorem State.hostStops_arg : s.hostStops.arg = s.arg := rfl
@[simp] theorem State.hostStops_seq : s.hostStops.seq = s.seq := rfl
@[simp] theorem State.hostStops_tmr : s.hostStops.tmr = s.tmr := rfl
@[simp] theorem State.hostStops_delay : s.hostStops.delay = s.delay := rfl
@[simp] theorem State.hostStops_reqValid : s.hostStops.reqValid = s.reqValid := rfl
@[simp] theorem State.hostStops_reqWord : s.hostStops.reqWord = s.reqWord := rfl
@[simp] theorem State.hostStops_resp : s.hostStops.resp = s.resp := rfl
@[simp] theorem State.hostStops_bus : s.hostStops.bus = s.bus := rfl
@[simp] theorem State.hostStops_rst : s.hostStops.rst = s.rst := rfl
@[simp] theorem State.hostStops_macroRest : s.hostStops.macroRest = [] := rfl
@[simp] theorem State.hostStops_plan : s.hostStops.plan = s.plan := rfl
@[simp] theorem State.hostStops_answers : s.hostStops.answers = s.answers := rfl
@[simp] theorem State.hostStops_draws : s.hostStops.draws = s.draws := rfl
@[simp] theorem State.hostStops_trace : s.hostStops.trace = s.trace := rfl
@[simp] theorem State.hostStops_asides : s.hostStops.asides = s.asides := rfl
@[simp] theorem State.hostStops_responses : s.hostStops.responses = s.responses := rfl
@[simp] theorem State.hostStops_waited : s.hostStops.waited = s.waited := rfl

/-! ### present -/

@[simp] theorem State.present_cfg (w : ReqWord) : (s.present w).cfg = s.cfg := rfl
@[simp] theorem State.present_bl (w : ReqWord) : (s.present w).bl = s.bl := rfl
@[simp] theorem State.present_busy (w : ReqWord) : (s.present w).busy = s.busy := rfl
@[simp] theorem State.present_op (w : ReqWord) : (s.present w).op = s.op := rfl
@[simp] theorem State.present_arg (w : ReqWord) : (s.present w).arg = s.arg := rfl
@[simp] theorem State.present_seq (w : ReqWord) : (s.present w).seq = s.seq := rfl
@[simp] theorem State.present_tmr (w : ReqWord) : (s.present w).tmr = s.tmr := rfl
@[simp] theorem State.present_delay (w : ReqWord) : (s.present w).delay = s.delay := rfl
@[simp] theorem State.present_reqValid (w : ReqWord) : (s.present w).reqValid = true := rfl
@[simp] theorem State.present_reqWord (w : ReqWord) : (s.present w).reqWord = w := rfl
@[simp] theorem State.present_resp (w : ReqWord) : (s.present w).resp = s.resp := rfl
@[simp] theorem State.present_bus (w : ReqWord) : (s.present w).bus = s.bus := rfl
@[simp] theorem State.present_rst (w : ReqWord) : (s.present w).rst = s.rst := rfl
@[simp] theorem State.present_macroRest (w : ReqWord) : (s.present w).macroRest = s.macroRest := rfl
@[simp] theorem State.present_plan (w : ReqWord) : (s.present w).plan = s.plan := rfl
@[simp] theorem State.present_answers (w : ReqWord) : (s.present w).answers = s.answers := rfl
@[simp] theorem State.present_draws (w : ReqWord) : (s.present w).draws = s.draws := rfl
@[simp] theorem State.present_trace (w : ReqWord) : (s.present w).trace = s.trace := rfl
@[simp] theorem State.present_asides (w : ReqWord) : (s.present w).asides = s.asides := rfl
@[simp] theorem State.present_responses (w : ReqWord) : (s.present w).responses = s.responses := rfl
@[simp] theorem State.present_waited (w : ReqWord) : (s.present w).waited = s.waited := rfl

/-! ### withdraw -/

@[simp] theorem State.withdraw_cfg : s.withdraw.cfg = s.cfg := rfl
@[simp] theorem State.withdraw_bl : s.withdraw.bl = s.bl := rfl
@[simp] theorem State.withdraw_busy : s.withdraw.busy = s.busy := rfl
@[simp] theorem State.withdraw_op : s.withdraw.op = s.op := rfl
@[simp] theorem State.withdraw_arg : s.withdraw.arg = s.arg := rfl
@[simp] theorem State.withdraw_seq : s.withdraw.seq = s.seq := rfl
@[simp] theorem State.withdraw_tmr : s.withdraw.tmr = s.tmr := rfl
@[simp] theorem State.withdraw_delay : s.withdraw.delay = s.delay := rfl
@[simp] theorem State.withdraw_reqValid : s.withdraw.reqValid = false := rfl
@[simp] theorem State.withdraw_reqWord : s.withdraw.reqWord = s.reqWord := rfl
@[simp] theorem State.withdraw_resp : s.withdraw.resp = s.resp := rfl
@[simp] theorem State.withdraw_bus : s.withdraw.bus = s.bus := rfl
@[simp] theorem State.withdraw_rst : s.withdraw.rst = s.rst := rfl
@[simp] theorem State.withdraw_macroRest : s.withdraw.macroRest = s.macroRest := rfl
@[simp] theorem State.withdraw_plan : s.withdraw.plan = s.plan := rfl
@[simp] theorem State.withdraw_answers : s.withdraw.answers = s.answers := rfl
@[simp] theorem State.withdraw_draws : s.withdraw.draws = s.draws := rfl
@[simp] theorem State.withdraw_trace : s.withdraw.trace = s.trace := rfl
@[simp] theorem State.withdraw_asides : s.withdraw.asides = s.asides := rfl
@[simp] theorem State.withdraw_responses : s.withdraw.responses = s.responses := rfl
@[simp] theorem State.withdraw_waited : s.withdraw.waited = s.waited := rfl

/-! ### hostWait -/

@[simp] theorem State.hostWait_cfg (t : Nat) : (s.hostWait t).cfg = s.cfg := rfl
@[simp] theorem State.hostWait_bl (t : Nat) : (s.hostWait t).bl = s.bl := rfl
@[simp] theorem State.hostWait_busy (t : Nat) : (s.hostWait t).busy = s.busy := rfl
@[simp] theorem State.hostWait_op (t : Nat) : (s.hostWait t).op = s.op := rfl
@[simp] theorem State.hostWait_arg (t : Nat) : (s.hostWait t).arg = s.arg := rfl
@[simp] theorem State.hostWait_seq (t : Nat) : (s.hostWait t).seq = s.seq := rfl
@[simp] theorem State.hostWait_tmr (t : Nat) : (s.hostWait t).tmr = s.tmr := rfl
@[simp] theorem State.hostWait_delay (t : Nat) : (s.hostWait t).delay = s.delay := rfl
@[simp] theorem State.hostWait_reqValid (t : Nat) : (s.hostWait t).reqValid = s.reqValid := rfl
@[simp] theorem State.hostWait_reqWord (t : Nat) : (s.hostWait t).reqWord = s.reqWord := rfl
@[simp] theorem State.hostWait_resp (t : Nat) : (s.hostWait t).resp = s.resp := rfl
@[simp] theorem State.hostWait_bus (t : Nat) : (s.hostWait t).bus = s.bus := rfl
@[simp] theorem State.hostWait_rst (t : Nat) : (s.hostWait t).rst = s.rst := rfl
@[simp] theorem State.hostWait_macroRest (t : Nat) : (s.hostWait t).macroRest = s.macroRest := rfl
@[simp] theorem State.hostWait_plan (t : Nat) : (s.hostWait t).plan = s.plan := rfl
@[simp] theorem State.hostWait_answers (t : Nat) : (s.hostWait t).answers = s.answers := rfl
@[simp] theorem State.hostWait_draws (t : Nat) : (s.hostWait t).draws = s.draws + 1 := rfl
@[simp] theorem State.hostWait_trace (t : Nat) : (s.hostWait t).trace = s.trace := rfl
@[simp] theorem State.hostWait_asides (t : Nat) :
    (s.hostWait t).asides = s.asides ++ [.hostWait s.trace.length t] := rfl
@[simp] theorem State.hostWait_responses (t : Nat) : (s.hostWait t).responses = s.responses := rfl
@[simp] theorem State.hostWait_waited (t : Nat) :
    (s.hostWait t).waited = s.waited + (t + Config.extraDelay s.draws) := rfl

/-! ### applyReset -/

@[simp] theorem State.applyReset_cfg : s.applyReset.cfg = s.cfg := rfl
@[simp] theorem State.applyReset_bl : s.applyReset.bl = s.cfg.blReset := rfl
@[simp] theorem State.applyReset_busy : s.applyReset.busy = false := rfl
@[simp] theorem State.applyReset_op : s.applyReset.op = 0 := rfl
@[simp] theorem State.applyReset_arg : s.applyReset.arg = 0 := rfl
@[simp] theorem State.applyReset_seq : s.applyReset.seq = [] := rfl
@[simp] theorem State.applyReset_tmr : s.applyReset.tmr = 0 := rfl
@[simp] theorem State.applyReset_delay : s.applyReset.delay = none := rfl
@[simp] theorem State.applyReset_reqValid : s.applyReset.reqValid = s.reqValid := rfl
@[simp] theorem State.applyReset_reqWord : s.applyReset.reqWord = s.reqWord := rfl
@[simp] theorem State.applyReset_resp : s.applyReset.resp = none := rfl
@[simp] theorem State.applyReset_bus : s.applyReset.bus = none := rfl
@[simp] theorem State.applyReset_rst : s.applyReset.rst = s.rst := rfl
@[simp] theorem State.applyReset_macroRest : s.applyReset.macroRest = if s.busy then [] else s.macroRest := rfl
@[simp] theorem State.applyReset_plan : s.applyReset.plan = s.plan := rfl
@[simp] theorem State.applyReset_answers : s.applyReset.answers = s.answers := rfl
@[simp] theorem State.applyReset_draws : s.applyReset.draws = s.draws := rfl
@[simp] theorem State.applyReset_trace : s.applyReset.trace = s.trace := rfl
@[simp] theorem State.applyReset_asides : s.applyReset.asides =
    s.asides ++ s.bus.toList.map (.cutWrite s.trace.length) := rfl
@[simp] theorem State.applyReset_responses : s.applyReset.responses = s.responses := rfl
@[simp] theorem State.applyReset_waited : s.applyReset.waited = s.waited := rfl

/-! ### beginStep -/

@[simp] theorem State.beginStep_cfg : s.beginStep.cfg = s.cfg := rfl
@[simp] theorem State.beginStep_bl : s.beginStep.bl = s.bl := rfl
@[simp] theorem State.beginStep_busy : s.beginStep.busy = s.busy := rfl
@[simp] theorem State.beginStep_op : s.beginStep.op = s.op := rfl
@[simp] theorem State.beginStep_arg : s.beginStep.arg = s.arg := rfl
@[simp] theorem State.beginStep_seq : s.beginStep.seq = s.seq := rfl
@[simp] theorem State.beginStep_tmr : s.beginStep.tmr = s.tmr := rfl
@[simp] theorem State.beginStep_delay : s.beginStep.delay = s.delay := rfl
@[simp] theorem State.beginStep_reqValid : s.beginStep.reqValid = s.reqValid := rfl
@[simp] theorem State.beginStep_reqWord : s.beginStep.reqWord = s.reqWord := rfl
@[simp] theorem State.beginStep_resp : s.beginStep.resp = none := rfl
@[simp] theorem State.beginStep_bus : s.beginStep.bus = s.bus := rfl
@[simp] theorem State.beginStep_rst : s.beginStep.rst = s.rst.tail := rfl
@[simp] theorem State.beginStep_macroRest : s.beginStep.macroRest = s.macroRest := rfl
@[simp] theorem State.beginStep_plan : s.beginStep.plan = s.plan := rfl
@[simp] theorem State.beginStep_answers : s.beginStep.answers = s.answers := rfl
@[simp] theorem State.beginStep_draws : s.beginStep.draws = s.draws := rfl
@[simp] theorem State.beginStep_trace : s.beginStep.trace = s.trace := rfl
@[simp] theorem State.beginStep_asides : s.beginStep.asides = s.asides := rfl
@[simp] theorem State.beginStep_responses : s.beginStep.responses = s.responses := rfl
@[simp] theorem State.beginStep_waited : s.beginStep.waited = s.waited := rfl

/-! ### takeAnswer: it moves on the script or the counter, and nothing else -/

@[simp] theorem State.takeAnswer_cfg : s.takeAnswer.cfg = s.cfg := by
  unfold State.takeAnswer; split <;> rfl

@[simp] theorem State.takeAnswer_bl : s.takeAnswer.bl = s.bl := by
  unfold State.takeAnswer; split <;> rfl

@[simp] theorem State.takeAnswer_busy : s.takeAnswer.busy = s.busy := by
  unfold State.takeAnswer; split <;> rfl

@[simp] theorem State.takeAnswer_op : s.takeAnswer.op = s.op := by
  unfold State.takeAnswer; split <;> rfl

@[simp] theorem State.takeAnswer_arg : s.takeAnswer.arg = s.arg := by
  unfold State.takeAnswer; split <;> rfl

@[simp] theorem State.takeAnswer_seq : s.takeAnswer.seq = s.seq := by
  unfold State.takeAnswer; split <;> rfl

@[simp] theorem State.takeAnswer_tmr : s.takeAnswer.tmr = s.tmr := by
  unfold State.takeAnswer; split <;> rfl

@[simp] theorem State.takeAnswer_delay : s.takeAnswer.delay = s.delay := by
  unfold State.takeAnswer; split <;> rfl

@[simp] theorem State.takeAnswer_reqValid : s.takeAnswer.reqValid = s.reqValid := by
  unfold State.takeAnswer; split <;> rfl

@[simp] theorem State.takeAnswer_reqWord : s.takeAnswer.reqWord = s.reqWord := by
  unfold State.takeAnswer; split <;> rfl

@[simp] theorem State.takeAnswer_resp : s.takeAnswer.resp = s.resp := by
  unfold State.takeAnswer; split <;> rfl

@[simp] theorem State.takeAnswer_bus : s.takeAnswer.bus = s.bus := by
  unfold State.takeAnswer; split <;> rfl

@[simp] theorem State.takeAnswer_rst : s.takeAnswer.rst = s.rst := by
  unfold State.takeAnswer; split <;> rfl

@[simp] theorem State.takeAnswer_macroRest : s.takeAnswer.macroRest = s.macroRest := by
  unfold State.takeAnswer; split <;> rfl

@[simp] theorem State.takeAnswer_plan : s.takeAnswer.plan = s.plan := by
  unfold State.takeAnswer; split <;> rfl

@[simp] theorem State.takeAnswer_trace : s.takeAnswer.trace = s.trace := by
  unfold State.takeAnswer; split <;> rfl

@[simp] theorem State.takeAnswer_asides : s.takeAnswer.asides = s.asides := by
  unfold State.takeAnswer; split <;> rfl

@[simp] theorem State.takeAnswer_responses : s.takeAnswer.responses = s.responses := by
  unfold State.takeAnswer; split <;> rfl

@[simp] theorem State.takeAnswer_waited : s.takeAnswer.waited = s.waited := by
  unfold State.takeAnswer; split <;> rfl

theorem State.takeAnswer_cons (a : Answer) (rest : List Answer) (h : s.answers = a :: rest) :
    s.takeAnswer = { s with answers := rest } := by
  unfold State.takeAnswer; rw [h]

theorem State.peekAnswer_cons (a : Answer) (rest : List Answer) (h : s.answers = a :: rest) :
    s.peekAnswer = a := by
  unfold State.peekAnswer; rw [h]

/-- Writing BL with its own value changes nothing. -/
@[simp] theorem State.writeBl_self : s.writeBl s.bl = s := rfl
@[simp] theorem State.reqReady_eq : s.reqReady = !s.busy := rfl
@[simp] theorem State.respValid_eq : s.respValid = s.resp.isSome := rfl
@[simp] theorem State.busValid_eq : s.busValid = s.bus.isSome := rfl

end Sys2Proof.Machine
end

