-- ==== Sys2Proof/Laws/Ops.lean ====
section
/-! SUPPORT. One lemma for each shared operation and each kind of step, which says all it can do; proofs cite these and
do not unfold the machine. -/

namespace Sys2Proof.Machine

/-! ### Requests -/

/-- An idle block accepts. -/
theorem State.request_idle (s : State) (ops : List MicroOp) (h : s.busy = false) :
    s.request ops = .next (s.accept ops) := by
  simp [State.request, h]

/-- A busy block does not accept. -/
theorem State.request_busy (s : State) (ops : List MicroOp) (h : s.busy = true) :
    s.request ops = .next s := by
  simp [State.request, h]

/-- All that `exec` can do, for every request: a busy block is left as it is, an idle one accepts, with BL written
first. -/
theorem exec_eq (i : Instr) (s : State) :
    exec i s = .next (if s.busy then s
      else (s.writeBl (blAfter i s.bl)).accept (expansion s.cfg s.bl i)) := by
  cases hb : s.busy <;> cases i <;>
    simp [exec, execNib, execCmd, execDat, execClr, execHome, execEntry, execDisp, execShift, execFunc, execCgaddr,
      execDdaddr, execInit, execBl, execReservedD, execReservedE, execReservedF, State.request, hb, blAfter, expansion]

theorem exec_idle (i : Instr) (s : State) (h : s.busy = false) :
    exec i s = .next ((s.writeBl (blAfter i s.bl)).accept (expansion s.cfg s.bl i)) := by
  simp [exec_eq, h]

/-! ### The sequencer -/

theorem State.sequence_delay (s : State) (t : Nat) (h : s.delay = some t) : s.sequence = s.endDelay t := by
  simp [State.sequence, h]

theorem State.sequence_bus (s : State) (v : Byte) (hd : s.delay = none) (h : s.bus = some v) :
    s.sequence = s.lookAtBus v := by
  simp [State.sequence, hd, h]

theorem State.sequence_nil (s : State) (hd : s.delay = none) (hb : s.bus = none) (h : s.seq = []) :
    s.sequence = s.respondOk := by
  simp [State.sequence, hd, hb, h]

theorem State.sequence_write (s : State) (v : Byte) (rest : List MicroOp) (hd : s.delay = none)
    (hb : s.bus = none) (h : s.seq = .write v :: rest) : s.sequence = s.issueWrite v := by
  simp [State.sequence, hd, hb, h]

theorem State.sequence_wait (s : State) (t : Nat) (rest : List MicroOp) (hd : s.delay = none)
    (hb : s.bus = none) (h : s.seq = .delay t :: rest) : s.sequence = s.startDelay t := by
  simp [State.sequence, hd, hb, h]

/-- All that the sequencer can do in one action. -/
theorem State.sequence_cases (s : State) :
    (∃ t, s.delay = some t ∧ s.sequence = s.endDelay t) ∨
    (∃ v, s.delay = none ∧ s.bus = some v ∧
      ((s.peekAnswer = .notYet ∧ s.sequence = s.takeAnswer) ∨
        (s.peekAnswer = .ok ∧ s.sequence = s.takeAnswer.writeSucceeded v) ∨
        ∃ i, s.peekAnswer = .fail i ∧ s.sequence = (s.takeAnswer.transportFailure v i).hostStops)) ∨
    (s.delay = none ∧ s.bus = none ∧
      ((s.seq = [] ∧ s.sequence = s.respondOk) ∨
        (∃ v rest, s.seq = .write v :: rest ∧ s.sequence = s.issueWrite v) ∨
        ∃ t rest, s.seq = .delay t :: rest ∧ s.sequence = s.startDelay t)) := by
  rcases hd : s.delay with _ | t
  · rcases hb : s.bus with _ | v
    · refine .inr (.inr ⟨rfl, rfl, ?_⟩)
      rcases hs : s.seq with _ | ⟨_ | _, rest⟩
      · exact .inl ⟨rfl, s.sequence_nil hd hb hs⟩
      · exact .inr (.inl ⟨_, _, rfl, s.sequence_write _ _ hd hb hs⟩)
      · exact .inr (.inr ⟨_, _, rfl, s.sequence_wait _ _ hd hb hs⟩)
    · refine .inr (.inl ⟨v, rfl, rfl, ?_⟩)
      have h := s.sequence_bus v hd hb
      unfold State.lookAtBus at h
      rcases ha : s.peekAnswer with _ | _ | i <;> rw [ha] at h
      · exact .inl ⟨rfl, h⟩
      · exact .inr (.inl ⟨rfl, h⟩)
      · exact .inr (.inr ⟨i, rfl, h⟩)
  · exact .inl ⟨t, rfl, s.sequence_delay t hd⟩

/-! ### The host -/

/-- All that the host's turn can do. -/
theorem State.hostTurn_cases (s : State) :
    (∃ w rest, s.macroRest = .request w :: rest ∧
      s.hostTurn = ({ s with macroRest := rest } : State).present w) ∨
    (∃ t rest, s.macroRest = .wait t :: rest ∧
      s.hostTurn = ({ s with macroRest := rest } : State).hostWait t) ∨
    (s.macroRest = [] ∧ s.plan = [] ∧ s.hostTurn = s) ∨
    ∃ m ms, s.macroRest = [] ∧ s.plan = m :: ms ∧ s.hostTurn = { s with macroRest := m, plan := ms } := by
  unfold State.hostTurn
  rcases hm : s.macroRest with _ | ⟨_ | _, rest⟩
  · rcases hp : s.plan with _ | ⟨m, ms⟩ <;> simp
  · exact .inl ⟨_, _, rfl, rfl⟩
  · exact .inr (.inl ⟨_, _, rfl, rfl⟩)

/-! ### Steps -/

theorem step_reset (s : State) (h : s.rstNow = true) : step s = .next s.beginStep.applyReset := by
  simp [step, h]

theorem step_busy (s : State) (hr : s.rstNow = false) (h : s.busy = true) :
    step s = .next s.beginStep.sequence := by
  simp [step, hr, h]

theorem step_host (s : State) (hr : s.rstNow = false) (hb : s.busy = false) (h : s.reqValid = false) :
    step s = .next s.beginStep.hostTurn := by
  simp [step, hr, hb, h]

theorem step_accept (s : State) (hr : s.rstNow = false) (hb : s.busy = false) (h : s.reqValid = true) :
    step s = .next ((s.beginStep.writeBl (blAfter (decode s.reqWord) s.bl)).accept
      (expansion s.cfg s.bl (decode s.reqWord))) := by
  simp [step, hr, hb, h, exec_idle]

/-- All that a step can do: reset, an action of the sequencer, the acceptance of the request on the port, or the
host's turn. -/
theorem step_cases (s t : State) (h : step s = .next t) :
    (s.rstNow = true ∧ t = s.beginStep.applyReset) ∨
    (s.rstNow = false ∧ s.busy = true ∧ t = s.beginStep.sequence) ∨
    (s.rstNow = false ∧ s.busy = false ∧ s.reqValid = true ∧
      t = (s.beginStep.writeBl (blAfter (decode s.reqWord) s.bl)).accept
        (expansion s.cfg s.bl (decode s.reqWord))) ∨
    (s.rstNow = false ∧ s.busy = false ∧ s.reqValid = false ∧ t = s.beginStep.hostTurn) := by
  cases hr : s.rstNow
  · cases hb : s.busy
    · cases hv : s.reqValid
      · rw [step_host s hr hb hv] at h; cases h; simp
      · rw [step_accept s hr hb hv] at h; cases h; simp
    · rw [step_busy s hr hb] at h; cases h; simp
  · rw [step_reset s hr] at h; cases h; simp

/-! ### Runs -/

theorem run_zero (s : State) : run 0 s = .next s := rfl

theorem core_run_succ (M : Host.Core) (n : Nat) (s u : M.State) (h : M.step s = .next u) :
    M.run (n + 1) s = M.run n u := by
  rw [Host.Core.run, h]

theorem core_run_inv (M : Host.Core) (n : Nat) (s t : M.State) (h : M.run (n + 1) s = .next t) :
    ∃ u, M.step s = .next u ∧ M.run n u = .next t := by
  rw [Host.Core.run] at h
  rcases hs : M.step s with u | r | r <;> simp only [hs] at h
  · exact ⟨u, rfl, h⟩
  · exact absurd h (by simp)
  · exact absurd h (by simp)

theorem run_succ (n : Nat) (s t : State) (h : step s = .next t) : run (n + 1) s = run n t :=
  core_run_succ Sys2Proof.core n s t h

theorem run_inv (n : Nat) (s t : State) (h : run (n + 1) s = .next t) :
    ∃ u, step s = .next u ∧ run n u = .next t :=
  core_run_inv Sys2Proof.core n s t h

theorem run_add (m n : Nat) (s t : State) (h : run m s = .next t) : run (m + n) s = run n t := by
  induction m generalizing s with
  | zero =>
    rw [run_zero] at h
    cases h
    rw [Nat.zero_add]
  | succ m ih =>
    obtain ⟨u, hu, hm⟩ := run_inv m s t h
    rw [show m + 1 + n = (m + n) + 1 by omega, run_succ _ s u hu, ih u hm]

/-! ### Lists of micro-operations -/

@[simp] theorem opsBytes_append (a b : List MicroOp) : opsBytes (a ++ b) = opsBytes a ++ opsBytes b := by
  induction a with
  | nil => rfl
  | cons x a ih => cases x <;> simp [opsBytes, ih]

@[simp] theorem opsLeastTime_append (c : Config) (a b : List MicroOp) :
    opsLeastTime c (a ++ b) = opsLeastTime c a + opsLeastTime c b := by
  induction a with
  | nil => simp [opsLeastTime]
  | cons x a ih => cases x <;> simp [opsLeastTime, ih, Nat.add_assoc]

@[simp] theorem gapTotal_append (a b : List TraceItem) : gapTotal (a ++ b) = gapTotal a + gapTotal b := by
  induction a with
  | nil => simp [gapTotal]
  | cons x a ih => cases x <;> simp [gapTotal, ih, Nat.add_assoc]

@[simp] theorem busBytes_append (a b : List TraceItem) : busBytes (a ++ b) = busBytes a ++ busBytes b := by
  induction a with
  | nil => rfl
  | cons x a ih => cases x <;> simp [busBytes, ih]

@[simp] theorem emittedBytes_append (a b : List TraceItem) :
    emittedBytes (a ++ b) = emittedBytes a ++ emittedBytes b := by
  induction a with
  | nil => rfl
  | cons x a ih => cases x <;> simp [emittedBytes, ih]

@[simp] theorem cutBytes_append (a b : List Aside) : cutBytes (a ++ b) = cutBytes a ++ cutBytes b := by
  induction a with
  | nil => rfl
  | cons x a ih => cases x <;> simp [cutBytes, ih]

@[simp] theorem hostWaitTotal_append (a b : List Aside) :
    hostWaitTotal (a ++ b) = hostWaitTotal a + hostWaitTotal b := by
  induction a with
  | nil => simp [hostWaitTotal]
  | cons x a ih => cases x <;> simp [hostWaitTotal, ih, Nat.add_assoc]

/-! ### The timeline -/

theorem asidesAt_append (as bs : List Aside) (n : Nat) : asidesAt (as ++ bs) n = asidesAt as n ++ asidesAt bs n := by
  simp [asidesAt]

/-- No aside stands after the end of the trace. -/
theorem asidesAt_beyond (as : List Aside) (m n : Nat) (h : ∀ a ∈ as, a.position ≤ m) (hn : m < n) :
    asidesAt as n = [] := by
  simp only [asidesAt, List.map_eq_nil_iff, List.filter_eq_nil_iff, beq_iff_eq]
  intro a ha
  have := h a ha
  omega

theorem timelineFrom_trace (as : List Aside) (x : TraceItem) (tr : List TraceItem) (n : Nat)
    (h : ∀ a ∈ as, a.position ≤ n + tr.length) :
    timelineFrom as n (tr ++ [x]) = timelineFrom as n tr ++ [.block x] := by
  induction tr generalizing n with
  | nil => simp [timelineFrom, asidesAt_beyond as n (n + 1) (by simpa using h) (by omega)]
  | cons y tr ih => simp [timelineFrom, ih (n + 1) (fun a ha => by have := h a ha; simp at this; omega)]

theorem timelineFrom_aside (as : List Aside) (b : Aside) (tr : List TraceItem) (n : Nat)
    (hb : b.position = n + tr.length) :
    timelineFrom (as ++ [b]) n tr = timelineFrom as n tr ++ [b.toTimeline] := by
  induction tr generalizing n with
  | nil => simp [timelineFrom, asidesAt, show b.position = n by simpa using hb]
  | cons y tr ih =>
    have : asidesAt [b] n = [] := by simp [asidesAt]; simp at hb; omega
    simp [timelineFrom, asidesAt_append, this, ih (n + 1) (by simp at hb; omega)]

theorem nibbleOps_bytes (c : Config) (rs bl : Bool) (n : Nibble) :
    opsBytes (nibbleOps c rs bl n) =
      [busByte c rs bl false n, busByte c rs bl false n ||| c.enMask, busByte c rs bl false n &&& ~~~c.enMask] := rfl

/-- The three bytes of a nibble, by what they are: Enable low, high, low (R72, R3). -/
theorem nibbleOps_bytes_wellFormed (c : Config) (h : c.wellFormed = true) (rs bl : Bool) (n : Nibble) :
    opsBytes (nibbleOps c rs bl n) =
      [busByte c rs bl false n, busByte c rs bl true n, busByte c rs bl false n] := by
  rw [nibbleOps_bytes, busByte_enable_set, busByte_enable_cleared c h]

theorem byteOps_bytes (c : Config) (rs bl : Bool) (b : Byte) :
    opsBytes (byteOps c rs bl b) =
      opsBytes (nibbleOps c rs bl (hiNibble b)) ++ opsBytes (nibbleOps c rs bl (loNibble b)) := by
  simp [byteOps]

theorem nibbleOps_length (c : Config) (rs bl : Bool) (n : Nibble) : (nibbleOps c rs bl n).length = 5 := rfl

theorem byteOps_length (c : Config) (rs bl : Bool) (b : Byte) : (byteOps c rs bl b).length = 10 := rfl

theorem initOps_length (c : Config) (bl : Bool) : (initOps c bl).length = 85 := rfl

end Sys2Proof.Machine
end

