-- ==== Sys2Proof/Laws/PerInstr.lean ====
section
/-! SUPPORT. Statements made once per request. `WordLayout`: the word of a request has the operation code of its row in
bits 11:8, its operands in the bits of `arg` the row names, and every reserved bit 0 (spec/30_encoding.md R50, R51,
R53). -/

namespace Sys2Proof.Laws.WordLayout

/-- The word of `i` is its operation code and its argument, no reserved bit of the argument is set, no row but its own
matches it, and it is well formed. -/
def Statement (i : Instr) : Prop :=
  opOf (encode i) = i.code ∧ argOf (encode i) = i.argByte ∧ i.argByte &&& ~~~argMask i.code = 0 ∧
    i.wellFormed = true ∧ ∀ r ∈ opTable, r.selects (encode i) = true → r.mnemonic = i.mnemonic

/-- A row of the table selects a word by its operation code alone (R52). -/
theorem selects_iff_code : ∀ op : BitVec 4, ∀ r ∈ opTable, ∀ arg : Byte,
    r.selects (mkWord op arg) = (op == opOf r.wmatch) := by
  intro op r hr arg
  have hm : (mkWord op arg &&& 0xF00#12) = mkWord op 0#8 := by
    apply BitVec.eq_of_getLsbD_eq
    intro i hi
    rw [BitVec.getLsbD_and, getLsbD_mkWord, getLsbD_mkWord]
    interval_cases i <;> simp
  have hk : r.wmask = 0xF00#12 ∧ mkWord (opOf r.wmatch) 0#8 = r.wmatch := by
    revert r
    decide
  rw [OpRow.selects, hk.1, hm, Bool.eq_iff_iff, beq_iff_eq, beq_iff_eq]
  constructor
  · intro h
    rw [← h, opOf_mkWord]
  · rintro rfl
    exact hk.2

/-- The row of an operation code is the only one that selects its words. -/
theorem row_of_code (i : Instr) (h : ∀ r ∈ opTable, i.code = opOf r.wmatch → r.mnemonic = i.mnemonic) :
    ∀ r ∈ opTable, r.selects (encode i) = true → r.mnemonic = i.mnemonic := by
  intro r hr hs
  rw [encode, selects_iff_code _ r hr, beq_iff_eq] at hs
  exact h r hr hs

/-- The layout from what is particular to a request: its reserved bits and its row. -/
theorem of_reserved (i : Instr) (hw : i.wellFormed = true) (hr : i.argByte &&& ~~~argMask i.code = 0)
    (hm : ∀ r ∈ opTable, i.code = opOf r.wmatch → r.mnemonic = i.mnemonic) : Statement i :=
  ⟨opOf_mkWord _ _, argOf_mkWord _ _, hr, hw, row_of_code i hm⟩

theorem nib (bl rs : Bool) (n : Nibble) : Statement (.nib bl rs n) :=
  of_reserved _ rfl (by revert bl rs n; decide)
    (show ∀ r ∈ opTable, (0x0 : BitVec 4) = opOf r.wmatch → r.mnemonic = "NIB" by decide)

theorem cmd (b : Byte) : Statement (.cmd b) :=
  of_reserved _ rfl (by revert b; decide)
    (show ∀ r ∈ opTable, (0x1 : BitVec 4) = opOf r.wmatch → r.mnemonic = "CMD" by decide)

theorem dat (b : Byte) : Statement (.dat b) :=
  of_reserved _ rfl (by revert b; decide)
    (show ∀ r ∈ opTable, (0x2 : BitVec 4) = opOf r.wmatch → r.mnemonic = "DAT" by decide)

theorem clr : Statement .clr := of_reserved _ rfl (by decide) (by decide)

theorem home : Statement .home := of_reserved _ rfl (by decide) (by decide)

theorem entry (id sh : Bool) : Statement (.entry id sh) :=
  of_reserved _ rfl (by revert id sh; decide) (by revert id sh; decide)

theorem disp (d c b : Bool) : Statement (.disp d c b) :=
  of_reserved _ rfl (by revert d c b; decide) (by revert d c b; decide)

theorem shift (sc rl : Bool) : Statement (.shift sc rl) :=
  of_reserved _ rfl (by revert sc rl; decide) (by revert sc rl; decide)

theorem func (dl n f : Bool) : Statement (.func dl n f) :=
  of_reserved _ rfl (by revert dl n f; decide) (by revert dl n f; decide)

theorem cgaddr (a : BitVec 6) : Statement (.cgaddr a) :=
  of_reserved _ rfl (by revert a; decide)
    (show ∀ r ∈ opTable, (0x9 : BitVec 4) = opOf r.wmatch → r.mnemonic = "CGADDR" by decide)

theorem ddaddr (a : BitVec 7) : Statement (.ddaddr a) :=
  of_reserved _ rfl (by revert a; decide)
    (show ∀ r ∈ opTable, (0xA : BitVec 4) = opOf r.wmatch → r.mnemonic = "DDADDR" by decide)

theorem init : Statement .init := of_reserved _ rfl (by decide) (by decide)

theorem bl (v : Bool) : Statement (.bl v) := of_reserved _ rfl (by revert v; decide) (by revert v; decide)

theorem reservedD : Statement .reservedD := of_reserved _ rfl (by decide) (by decide)

theorem reservedE : Statement .reservedE := of_reserved _ rfl (by decide) (by decide)

theorem reservedF : Statement .reservedF := of_reserved _ rfl (by decide) (by decide)

end Sys2Proof.Laws.WordLayout
end

