-- ==== Sys2Proof/Tests/Slice0.lean ====
section
/-! SUPPORT. The model's own tests. Every expected value is from spec/95_test_vectors.md (V, S: a vector or an example of
that file) or from the rule named; the witnesses at the end show a concrete state for the hypotheses of each statement. -/

namespace Sys2Proof.Tests

open Sys2Proof.Machine Sys2Proof.Says

/-! ### Well-formedness: each check refuses a term -/

theorem test_standard_wellFormed : Config.standard.wellFormed = true := by decide

/-- R3: a mask with two bits. -/
theorem test_masks_refuse_two_bits : ({ Config.standard with enMask := 0x06 } : Config).wellFormed = false := by decide

/-- R3: a mask outside bits 3:0. -/
theorem test_masks_refuse_high_bit : ({ Config.standard with blMask := 0x10 } : Config).wellFormed = false := by decide

/-- R3: two equal masks. -/
theorem test_masks_refuse_equal : ({ Config.standard with rsMask := 0x04 } : Config).wellFormed = false := by decide

/-- R14: an address wider than `ADDR_W`. -/
theorem test_addr_refused : ({ Config.standard with devAddr := 0x80 } : Config).wellFormed = false := by decide

/-- Section 4: another `OP_DDRAM` than the source's. -/
theorem test_sourceBytes_refused : ({ Config.standard with opDdram := 0x40 } : Config).wellFormed = false := by decide

/-- Section 4: another settle than the source's. -/
theorem test_times_refused : ({ Config.standard with tSettle := 199 } : Config).wellFormed = false := by decide

/-- R20: no clock. -/
theorem test_clock_refused : ({ Config.standard with clkHz := 0 } : Config).wellFormed = false := by decide

/-- The session of the spec's programs P1, P2 and P4: two rows of sixteen. -/
def host2x16 : HostConfig where
  rows := 2
  cols := 16
  blinkWithCursor := false
  remapTable := [(0x410, 65)]
  putcFromGivenCol := true
  putcSetsRow := true

theorem test_host_wellFormed : host2x16.wellFormed = true := by decide

/-- R131: no row. -/
theorem test_host_refused : ({ host2x16 with rows := 0 } : HostConfig).wellFormed = false := by decide

/-- R59: an operand of another row and one out of order; by the choice of log entry 9 a value wider than its field and a
wide field left out. -/
theorem test_written_refused :
    (Written.mk 0x3 [("b", 1)]).wellFormed = false ∧ (Written.mk 0x0 [("n", 16)]).wellFormed = false ∧
    (Written.mk 0x6 [("b", 1), ("d", 1)]).wellFormed = false ∧ (Written.mk 0x1 []).wellFormed = false := by decide

/-! ### Decoding: words written out from R51 -/

/-- V1. -/
theorem test_decode_nib : decode 0b0000_00_1_1_1010 = .nib true true 0xA := by decide

/-- V10. -/
theorem test_decode_cmd : decode 0b0001_00101000 = .cmd 0x28 := by decide

/-- V17. -/
theorem test_decode_dat : decode 0b0010_10100101 = .dat 0xA5 := by decide

/-- V20. -/
theorem test_decode_clr : decode 0b0011_00000000 = .clr := by decide

/-- V21. -/
theorem test_decode_home : decode 0b0100_00000000 = .home := by decide

/-- V23. -/
theorem test_decode_entry : decode 0b0101_000000_1_0 = .entry true false := by decide

/-- V28. -/
theorem test_decode_disp : decode 0b0110_00000_1_0_1 = .disp true false true := by decide

/-- V33. -/
theorem test_decode_shift : decode 0b0111_0000_1_0_00 = .shift true false := by decide

/-- V36. -/
theorem test_decode_func : decode 0b1000_000_0_1_0_00 = .func false true false := by decide

/-- V39. -/
theorem test_decode_cgaddr : decode 0b1001_00_111000 = .cgaddr 0x38 := by decide

/-- V45. -/
theorem test_decode_ddaddr : decode 0b1010_0_1010100 = .ddaddr 0x54 := by decide

/-- V30. -/
theorem test_decode_init : decode 0b1011_00000000 = .init := by decide

/-- V50. -/
theorem test_decode_bl : decode 0b1100_0000000_1 = .bl true := by decide

/-- V55. -/
theorem test_decode_reservedD : decode 0b1101_00000000 = .reservedD := by decide

/-- V55. -/
theorem test_decode_reservedE : decode 0b1110_01011010 = .reservedE := by decide

/-- V55. -/
theorem test_decode_reservedF : decode 0b1111_11111111 = .reservedF := by decide

/-- R53, V5, V41, V47, V53: reserved bits set. -/
theorem test_decode_reserved_bits :
    decode 0x0FA = decode 0x03A ∧ decode 0x9C8 = .cgaddr 0x08 ∧ decode 0xAC0 = .ddaddr 0x40 ∧ decode 0xCFE = .bl false ∧
    decode 0x3FF = .clr ∧ decode 0xBFF = .init := by decide

/-- R50: a number of more than 12 bits is no request word. -/
theorem test_decode_number : decodeTableWord 12 0x1000 = none ∧ decodeTableWord 12 0x03A = some (.nib true true 0xA) := by
  decide

/-- R51: the words of the builders' vectors V24, V34, V37, V46, and of R59's examples. -/
theorem test_encode :
    encode (.entry true true) = 0x503 ∧ encode (.shift true true) = 0x70C ∧ encode (.func true true true) = 0x81C ∧
    encode (.ddaddr 0x7F) = 0xA7F ∧ encode (.nib true true 0xA) = 0x03A ∧ encode (.bl false) = 0xC00 := by decide

/-- R51, R59: the mask of the bits a row names agrees with its list of fields. -/
theorem test_fields_agree : ∀ op : BitVec 4,
    argMask op = (argFields op).foldl (fun m f => m ||| BitVec.ofNat 8 ((2 ^ f.width - 1) * 2 ^ f.lo)) 0 := by decide

/-- R59: the rule's examples, from the text. -/
theorem test_readLine :
    readLine "NIB bl=1, rs=1, n=0xA".toList = some (.request ⟨0x0, [("bl", 1), ("rs", 1), ("n", 10)]⟩) ∧
    readLine "DISP d=1  ; on".toList = some (.request ⟨0x6, [("d", 1)]⟩) ∧
    readLine ".wait 1000000".toList = some (.wait 1000000) ∧ readLine "; only a comment".toList = some .blank ∧
    readLine "JUMP a=1".toList = none := by decide

/-- R59: `NIB bl=1, rs=1, n=0xA` is 0x03A, `DISP d=1` is 0x604, `BL v=0` is 0xC00. -/
theorem test_assemble :
    assemble ⟨0x0, [("bl", 1), ("rs", 1), ("n", 10)]⟩ = some 0x03A ∧ assemble ⟨0x6, [("d", 1)]⟩ = some 0x604 ∧
    assemble ⟨0xC, [("v", 0)]⟩ = some 0xC00 := by decide

/-! ### One step of each request: the bytes it is to write and BL after it -/

/-- The block idle, with `BL` = `v` and the word `w` on the port. -/
def idle (v : Bool) (w : ReqWord) : State := { State.reset.present w with bl := v }

/-- What the block is to write after it has accepted `w` with `BL` = `v`, and BL then. -/
def takes (v : Bool) (w : ReqWord) : Option (List Byte × Bool) :=
  match step (idle v w) with
  | .next t => some (opsBytes t.seq, t.bl)
  | .fault _ => none
  | .refused _ => none

/-- V1. -/
theorem test_nib : takes true 0x03A = some ([0xA9, 0xAD, 0xA9], true) := by decide

/-- V3. -/
theorem test_nib_low : takes true 0x01F = some ([0xF1, 0xF5, 0xF1], true) := by decide

/-- V11. -/
theorem test_cmd : takes false 0x128 = some ([0x20, 0x24, 0x20, 0x80, 0x84, 0x80], false) := by decide

/-- V18. -/
theorem test_cmd_A5 : takes true 0x1A5 = some ([0xA8, 0xAC, 0xA8, 0x58, 0x5C, 0x58], true) := by decide

/-- V14. -/
theorem test_dat : takes true 0x248 = some ([0x49, 0x4D, 0x49, 0x89, 0x8D, 0x89], true) := by decide

/-- V17. -/
theorem test_dat_A5 : takes false 0x2A5 = some ([0xA1, 0xA5, 0xA1, 0x51, 0x55, 0x51], false) := by decide

/-- V20. -/
theorem test_clr : takes true 0x300 = some ([0x08, 0x0C, 0x08, 0x18, 0x1C, 0x18], true) := by decide

/-- V21. -/
theorem test_home : takes true 0x400 = some ([0x08, 0x0C, 0x08, 0x28, 0x2C, 0x28], true) := by decide

/-- V23. -/
theorem test_entry : takes true 0x502 = some ([0x08, 0x0C, 0x08, 0x68, 0x6C, 0x68], true) := by decide

/-- V28. -/
theorem test_disp : takes true 0x605 = some ([0x08, 0x0C, 0x08, 0xD8, 0xDC, 0xD8], true) := by decide

/-- V27. -/
theorem test_disp_cursor : takes true 0x606 = some ([0x08, 0x0C, 0x08, 0xE8, 0xEC, 0xE8], true) := by decide

/-- V32. -/
theorem test_shift : takes true 0x704 = some ([0x18, 0x1C, 0x18, 0x48, 0x4C, 0x48], true) := by decide

/-- V36. -/
theorem test_func : takes true 0x808 = some ([0x28, 0x2C, 0x28, 0x88, 0x8C, 0x88], true) := by decide

/-- V37. -/
theorem test_func_all : takes true 0x81C = some ([0x38, 0x3C, 0x38, 0xC8, 0xCC, 0xC8], true) := by decide

/-- V40. -/
theorem test_cgaddr : takes true 0x93F = some ([0x78, 0x7C, 0x78, 0xF8, 0xFC, 0xF8], true) := by decide

/-- V45. -/
theorem test_ddaddr : takes true 0xA54 = some ([0xD8, 0xDC, 0xD8, 0x48, 0x4C, 0x48], true) := by decide

/-- V51. -/
theorem test_bl_off : takes true 0xC00 = some ([0x00], false) := by decide

/-- V50. -/
theorem test_bl_on : takes false 0xC01 = some ([0x08], true) := by decide

/-- V48: INIT with `BL` = 0. -/
theorem test_init : takes false 0xB00 = some (
    [0x00, 0x04, 0x00, 0x30, 0x34, 0x30] ++
    [0x00, 0x04, 0x00, 0x30, 0x34, 0x30] ++
    [0x00, 0x04, 0x00, 0x30, 0x34, 0x30] ++
    [0x00, 0x04, 0x00, 0x20, 0x24, 0x20] ++
    [0x20, 0x24, 0x20, 0x80, 0x84, 0x80] ++
    [0x00, 0x04, 0x00, 0xC0, 0xC4, 0xC0] ++
    [0x00, 0x04, 0x00, 0x10, 0x14, 0x10] ++
    [0x00, 0x04, 0x00, 0x60, 0x64, 0x60], false) := by decide

/-- V30: the gaps of INIT that are no part of a byte, 85 micro-operations in all (R15). -/
theorem test_init_waits : (initOps Config.standard true).length = 85 ∧
    (initOps Config.standard true)[10]? = some (.delay 100000) ∧
    (initOps Config.standard true)[43]? = some (.delay 100000) ∧
    (initOps Config.standard true)[84]? = some (.delay 200000) := by decide

/-- V55. -/
theorem test_reserved : takes true 0xD00 = some ([], true) ∧ takes false 0xE5A = some ([], false) ∧
    takes true 0xFFF = some ([], true) := by decide

/-- V6: other masks. -/
theorem test_other_masks :
    let c : Config := { Config.standard with enMask := 0x01, rsMask := 0x04, blMask := 0x02 }
    c.wellFormed = true ∧ opsBytes (nibbleOps c true true 0xA) = [0xA6, 0xA7, 0xA6] ∧
    opsBytes (byteOps c false true 0x28) = [0x22, 0x23, 0x22, 0x82, 0x83, 0x82] := by decide

/-- R72: the whole expansion of V1. -/
theorem test_nibble_ops : nibbleOps Config.standard true true 0xA =
    [.write 0xA9, .write 0xAD, .delay 500, .write 0xA9, .delay 200] := by decide

/-- V1's trace and V62's, from the answers alone. -/
theorem test_runOps :
    runOps Config.standard (nibbleOps Config.standard true true 0xA) [.ok, .ok, .ok] =
      some ([.wrote 0xA9, .gap 200, .wrote 0xAD, .gap 200, .gap 500, .wrote 0xA9, .gap 200, .gap 200], ⟨.ok, 0⟩) ∧
    runOps Config.standard (nibbleOps Config.standard true true 0xA) [.ok, .ok, .fail 7] =
      some ([.wrote 0xA9, .gap 200, .wrote 0xAD, .gap 200, .gap 500, .writeFailed 0xA9], ⟨.transportFail, 7⟩) := by
  decide

/-! ### The sequencer, the failure, the host and reset: one step each -/

/-- V1's NIB with its first write outstanding and the transport's answers `as`. -/
def answering (as : List Answer) : State :=
  { State.reset with busy := true, arg := 0x3A, seq := nibbleOps Config.standard true true 0xA,
                     bus := some 0xA9, answers := as }

/-- A request in progress with `ops` left to do. -/
def doing (ops : List MicroOp) : State := { State.reset with busy := true, seq := ops }

/-- The state after one step. -/
def next (s : State) : State :=
  match step s with
  | .next t => t
  | .fault _ => s
  | .refused _ => s

/-- V60: the first write fails. -/
theorem test_failure :
    let t := next (answering [.fail 3])
    t.trace = [.writeFailed 0xA9] ∧ t.responses = [⟨.transportFail, 3⟩] ∧ t.busy = false ∧ t.seq = [] ∧ t.bl = true := by
  decide

/-- V64: BL is not rolled back. -/
theorem test_failure_keeps_new_backlight :
    let s : State := { answering [.fail 3] with bl := false, bus := some 0x00, seq := [.write 0x00] }
    (next s).bl = false ∧ (next s).trace = [.writeFailed 0x00] := by decide

/-- R130, program P4: the host gives up the rest of the macro. -/
theorem test_failure_stops_macro :
    (next { answering [.fail 3] with macroRest := [.request 0x242], plan := [[.request 0xA05]] }).macroRest = [] ∧
    (next { answering [.fail 3] with macroRest := [.request 0x242], plan := [[.request 0xA05]] }).plan =
      [[.request 0xA05]] := by decide

/-- R70: success puts the write on the trace and starts the settle. -/
theorem test_success : (next (answering [.ok])).trace = [.wrote 0xA9] ∧ (next (answering [.ok])).delay = some 200 := by
  decide

/-- R70, U4: no answer, no progress. -/
theorem test_no_answer : next (answering [.notYet, .ok]) = answering [.ok] := by decide

/-- R71: a delay that has run out is on the trace. -/
theorem test_delay_ends :
    (next { doing [.delay 500, .write 0xA9] with delay := some 500, tmr := 510 }).trace = [.gap 500] ∧
    (next { doing [.delay 500, .write 0xA9] with delay := some 500, tmr := 510 }).seq = [.write 0xA9] ∧
    (next { doing [.delay 500, .write 0xA9] with delay := some 500, tmr := 510 }).waited = 510 := by decide

/-- R18: the response; R10: no record of it is left when the pulse is over. -/
theorem test_response : (next (doing [])).responses = [⟨.ok, 0⟩] ∧ (next (doing [])).resp = some ⟨.ok, 0⟩ ∧
    (next (doing [])).reqReady = true ∧ (next (next (doing []))).resp = none := by decide

/-- R10, R21: no record of the byte last written is left after a success or a failure. -/
theorem test_no_copy_of_the_byte : (next (answering [.ok])).bus = none ∧ (next (answering [.fail 3])).bus = none := by
  decide

/-- R24, R170: reset in mid-request. -/
theorem test_reset_input :
    let t := next { answering [.ok] with rst := [true], bl := false }
    t.busy = false ∧ t.seq = [] ∧ t.bl = true ∧ t.bus = none ∧ t.responses = [] ∧ t.trace = [] ∧
    t.asides = [.cutWrite 0 0xA9] := by decide

/-- R160: the host writes no trace item; program P3: its wait stands between the HOME's last gap and what comes next. -/
theorem test_host_waits :
    let t := next { State.reset with macroRest := [.wait 1000000], trace := [.gap 200, .gap 200] }
    t.trace = [.gap 200, .gap 200] ∧
    t.timeline = [.block (.gap 200), .block (.gap 200), .hostWait 1000000] ∧
    ({ t with trace := t.trace ++ [.wrote 0x00] } : State).timeline =
      [.block (.gap 200), .block (.gap 200), .hostWait 1000000, .block (.wrote 0x00)] := by decide

/-- R130: the host takes its next macro, and presents a request. -/
theorem test_host_presents :
    (next { State.reset with plan := [[.request 0x300]] }).macroRest = [.request 0x300] ∧
    (next { State.reset with macroRest := [.request 0x300] }).reqWord = 0x300 ∧
    (next { State.reset with macroRest := [.request 0x300] }).reqValid = true := by decide

/-- R17: a request the host drops before it is accepted is lost. -/
theorem test_withdraw : (next (idle true 0x300).withdraw).busy = false ∧ (next (idle true 0x300)).busy = true := by decide

/-- R18, R19, R150: the port codes. -/
theorem test_ports : Status.ok.code = 0 ∧ Status.transportFail.code = 1 ∧ State.reset.busAddr = 0x27 ∧
    infoPort Config.standard 0xFF = 0xFF ∧ (next (doing [])).respValid = true ∧ State.reset.respValid = false ∧
    (answering [.ok]).busValid = true ∧ (next (answering [.ok])).busValid = false := by decide

/-- Section 6 of 00_scope.md: the run from reset with no plan is over; one with a macro to come is not. -/
theorem test_runOver : State.reset.runOver = true ∧ ({ State.reset with plan := [[.wait 1]] } : State).runOver = false ∧
    (idle true 0x300).runOver = false := by decide

/-- D13: a failed response is not a safe run. -/
theorem test_allOk : (next (doing [])).allOk = true ∧ (next (answering [.fail 3])).allOk = false := by decide

/-! ### The host macros -/

/-- The words of a list. -/
def words (xs : List HostItem) : List Nat :=
  xs.map fun x =>
    match x with
    | .request w => w.toNat
    | .wait t => 1000000000 + t

/-- S2: GOTO 7, 3 on two rows; P3: GOTO 5, 2 on four rows of twenty. -/
theorem test_goto : words ((Macro.goto 7 3).expand Config.standard host2x16) = [0xA43] ∧
    words ((Macro.goto 5 2).expand Config.standard { host2x16 with rows := 4, cols := 20 }) = [0xA56] := by decide

/-- S7: DEFCHAR 9 is DEFCHAR 1 (program P2's pattern). -/
theorem test_defchar : words ((Macro.defchar 9 0 0x0A 0x1F 0x1F 0x0E 0x04 0 0).expand Config.standard host2x16) =
    [0x908, 0x200, 0x20A, 0x21F, 0x21F, 0x20E, 0x204, 0x200, 0x200] := by decide

/-- P1: PUTS "HI", 0, 0. -/
theorem test_puts : words ((Macro.puts ['H', 'I'] 0 0).expand Config.standard host2x16) = [0xA00, 0x248, 0x249] := by
  decide

/-- S8: a mapped character and an unmapped one; PUTC sets the address itself (R144). -/
theorem test_putc : words ((Macro.putc 'А' 0 0).expand Config.standard host2x16) = [0xA00, 0x241] ∧
    words ((Macro.putc 'Z' 1 3).expand Config.standard host2x16) = [0xA43, 0x25A] := by decide

/-- S3, R137, R138, R139, R140. -/
theorem test_fixed_macros : words (Macro.clear.expand Config.standard host2x16) = [0x300, 0x400, 1001000000] ∧
    words ((Macro.cursor .solid).expand Config.standard host2x16) = [0x606, 1000050000] ∧
    words ((Macro.display false).expand Config.standard host2x16) = [0x600] ∧
    words (Macro.movl.expand Config.standard host2x16) = [0x708] ∧
    words ((Macro.backlight false).expand Config.standard host2x16) = [0xC00] := by decide

/-- S11: the row offsets of 16 and 20 columns. -/
theorem test_rowOffsets : [0, 1, 2, 3].map (rowOffset host2x16) = [0x00, 0x40, 0x10, 0x50] ∧
    [0, 1, 2, 3].map (rowOffset { host2x16 with cols := 20 }) = [0x00, 0x40, 0x14, 0x54] := by decide

/-- S1, S2, R139: the tracked position. -/
theorem test_tracked :
    let s : Session := ⟨0, 0, true, .hidden, true⟩
    (Macro.goto 7 3).track host2x16 s = { s with trow := 1, tcol := 3 } ∧
    Macro.movl.track host2x16 s = { s with tcol := -1 } ∧
    (Macro.puts ['H', 'I'] 0 0).track host2x16 s = { s with tcol := 2 } := by decide

/-- R142. -/
theorem test_localized : localizedLines ['a'] ['b'] = [.puts ['a'] 0 0, .puts ['b'] 1 0] := by decide

/-- The acts of a list of words. -/
def sends (ws : List ReqWord) : List HostAct := ws.map fun w => .item (.request w)

/-- R171, R172, R176: what the duties refuse: no INIT first, an 8-bit function set, no wait after a clear; and P3's clear. -/
theorem test_duties_refused :
    hostObeys Config.standard (sends [0x300]) = false ∧ hostObeys Config.standard (sends [0xB00, 0x130]) = false ∧
    hostObeys Config.standard (sends [0xB00, 0x300, 0x241]) = false ∧
    hostObeys Config.standard
      (sends [0xC01, 0xB00, 0x300, 0x400] ++ [.item (.wait 1000000)] ++ sends [0x241]) = true := by decide

/-- R177: `DISP d=1, c=1` after INIT owes 50 ms, so does the same byte by CMD (R91); DISPLAY on owes nothing (R138); BL needs
no wait and pays none; a DISP of the mode sent before owes the wait again (R137), and so does CURSOR Hidden after DISPLAY
on, which has sent the same flags (R138). -/
theorem test_cursor_wait :
    hostObeys Config.standard (sends [0xB00, 0x606, 0x241]) = false ∧
    hostObeys Config.standard (sends [0xB00, 0x10E, 0x241]) = false ∧
    hostObeys Config.standard (sends [0xB00, 0x606, 0xC01, 0x241]) = false ∧
    hostObeys Config.standard (sends [0xB00, 0x606] ++ [.item (.wait 49999)] ++ sends [0x241]) = false ∧
    hostObeys Config.standard (sends [0xB00, 0x606] ++ [.item (.wait 50000)] ++ sends [0x606, 0x241]) = false ∧
    hostObeys Config.standard (sends [0xB00, 0x606] ++ [.item (.wait 50000)] ++ sends [0x241]) = true ∧
    hostObeys Config.standard
      (sends [0xB00, 0x606] ++ [.item (.wait 50000), .displayOnOff true] ++ sends [0x604, 0x241]) = false ∧
    hostObeys Config.standard
      (sends [0xB00, 0x606] ++ [.item (.wait 50000), .displayOnOff true] ++ sends [0x241]) = true := by decide

/-! ### The observer (R180 rows 2 and 3, R183) -/

/-- R180: after a failed write that raises Enable, Enable is high if the write got through. -/
theorem test_latch :
    let items : List TimelineItem := [.block (.wrote 0x28), .block (.gap 200), .block (.writeFailed 0x2C)]
    enableHigh Config.standard (latchAfter 0 (reachedBytes [true] items)) = true ∧
    enableHigh Config.standard (latchAfter 0 (reachedBytes [false] items)) = false := by decide

/-- R75: the two nibbles of V10. -/
theorem test_strobes : strobes Config.standard 0 [0x28, 0x2C, 0x28, 0x88, 0x8C, 0x88] = [(false, 2), (false, 8)] := by
  decide

/-- R183: 200 microseconds at 32768 Hz are 6.55 cycles, counted as 7. -/
theorem test_cycles : delayCycles { Config.standard with clkHz := 32768 } 200 = 7 ∧
    delayCycles Config.standard 200 = 200 := by decide

/-- R182, R74: least times of a nibble, a byte and INIT; V49. -/
theorem test_least_times :
    opsLeastTime Config.standard (nibbleOps Config.standard false true 3) = 1300 ∧
    opsLeastTime Config.standard (byteOps Config.standard false true 3) = 2600 ∧
    opsLeastTime Config.standard (initOps Config.standard true) = 620800 ∧
    opsLeastTime { Config.standard with tInitStep := 5000 }
      (initOps { Config.standard with tInitStep := 5000 } true) = 335800 := by decide

/-! ### Witnesses: the hypotheses of each statement are met -/

/-- DecodeOfEncode. -/
theorem witness_wellFormed_request :
    (Instr.nib true true 0xF).wellFormed = true ∧ Instr.reservedF.wellFormed = true := by decide

/-- SameRequestIffOnlyReservedBitsDiffer: both sides hold of some words and fail of others. -/
theorem witness_same_request : decode 0x0FA = decode 0x03A ∧ decode 0x03A ≠ decode 0x03B ∧ decode 0x300 ≠ decode 0x400 := by
  decide

/-- The statements of one accepted request: NibIsAcceptedWithItsStrobe, CmdAndDatAreAcceptedWithTwoStrobes,
ClrAndHomeSendTheirOpcode, FlagBuildersSendOpcodeAndFlags, AddressBuildersSendTheAddress, InitIsTheHandshake,
BlWritesTheRegisterFirst, WritesAndLeastTimeOfEachRequest, BacklightBitOfEveryBusByte, RegisterSelectOfEveryBusByte; with
the other masks of V6 as well. -/
theorem witness_idle_block :
    State.reset.cfg.wellFormed = true ∧ State.reset.busy = false ∧
    (State.resetWith { Config.standard with enMask := 0x01, rsMask := 0x04 }).cfg.wellFormed = true ∧
    (State.resetWith { Config.standard with enMask := 0x01, rsMask := 0x04 }).busy = false := by decide

/-- NibbleSplitOfEveryByte, ByteIsTwoStrobes: both requests. -/
theorem witness_byte_requests :
    State.reset.cfg.wellFormed = true ∧ State.reset.busy = false ∧ enableHigh State.reset.cfg 0x00 = false ∧
    commandByte State.reset.cfg (.cmd 0x28) = some 0x28 ∧ commandByte State.reset.cfg (.func false true false) = some 0x28 ∧
    (Instr.dat 0x28 = .dat 0x28) := by decide

/-- InitStrobesSixteenNibbles, BlMakesNoStrobe: Enable was low before, and it can be high. -/
theorem witness_enable_low :
    enableHigh State.reset.cfg 0xFB = false ∧ enableHigh State.reset.cfg 0x04 = true := by decide

/-- ReservedCodesDoNothing. -/
theorem witness_reserved_codes :
    State.reset.busy = false ∧ State.reset.delay = none ∧ State.reset.bus = none ∧ State.reset.rstNow = false ∧
    Instr.reservedD ∈ [Instr.reservedD, Instr.reservedE, Instr.reservedF] ∧
    Instr.reservedF ∈ [Instr.reservedD, Instr.reservedE, Instr.reservedF] := by decide

/-- BusyBlockAcceptsNothing: a request waits on the port of a busy block. -/
theorem witness_busy_block :
    let s : State := { answering [.ok] with reqValid := true, reqWord := 0xC00 }
    s.busy = true ∧ s.rstNow = false ∧ s.reqValid = true ∧ step s = .next (next s) := ⟨rfl, rfl, rfl, rfl⟩

/-- RequestsRememberOnlyBl: the same BL, and a NIB with another BL. -/
theorem witness_same_backlight :
    (idle true 0x128).busy = false ∧ State.reset.busy = false ∧ State.reset.cfg = (idle true 0x128).cfg ∧
    State.reset.bl = (idle true 0x128).bl ∧ State.reset.bl ≠ (idle false 0x03A).bl := by decide

/-- StepRunsTheDecodedRequest, BusyRisesByAcceptance and the BL clause of OnlyBlRequestAndResetWriteBl. -/
theorem witness_acceptance :
    let s := idle true 0xC00
    s.rstNow = false ∧ s.busy = false ∧ s.reqValid = true ∧ step s = .next (next s) ∧ (next s).busy = true ∧
    decode s.reqWord = .bl (next s).bl ∧ (next s).bl ≠ s.bl := ⟨rfl, rfl, rfl, rfl, rfl, rfl, by decide⟩

/-- PlacedWordRunsNext, at both ends of the range. -/
theorem witness_placed_words : (0 : Nat) < 4096 ∧ (4095 : Nat) < 4096 ∧
    (State.reset.withFetchWord 12 4095).reqWord = 0xFFF := by decide

/-- WriteIsIssuedAndHeld (first clause) and WritesAreIssuedOneAtATime. -/
theorem witness_write_to_issue :
    let s := doing [.write 0xA9]
    between s ∧ s.seq = .write 0xA9 :: [] ∧ step s = .next (next s) ∧ s.bus = none ∧ (next s).bus = some 0xA9 :=
  ⟨⟨rfl, rfl, rfl, rfl⟩, rfl, rfl, rfl, rfl⟩

/-- WriteIsIssuedAndHeld (second clause): no answer yet, and an answer. -/
theorem witness_write_held :
    awaiting (answering [.notYet]) 0xA9 ∧ (answering [.notYet]).peekAnswer = .notYet ∧ awaiting (answering [.ok]) 0xA9 ∧
    (answering [.ok]).peekAnswer ≠ .notYet := ⟨⟨rfl, rfl, rfl, rfl⟩, rfl, ⟨rfl, rfl, rfl, rfl⟩, by decide⟩

/-- SettleFollowsEverySuccessfulWrite, and its inner clause. -/
theorem witness_success :
    awaiting (answering [.ok]) 0xA9 ∧ (answering [.ok]).answers = .ok :: [] ∧ (next (answering [.ok])).rstNow = false :=
  ⟨⟨rfl, rfl, rfl, rfl⟩, rfl, rfl⟩

/-- DelayLastsAtLeastItsBound, and its inner clause. -/
theorem witness_delay :
    between (doing [.delay 500]) ∧ (doing [.delay 500]).seq = .delay 500 :: [] ∧
    (next (doing [.delay 500])).rstNow = false := ⟨⟨rfl, rfl, rfl, rfl⟩, rfl, rfl⟩

/-- TransportFailureEndsTheRequest, at both ends of the information. -/
theorem witness_failure :
    awaiting (answering [.fail 255]) 0xA9 ∧ (answering [.fail 255]).answers = .fail 255 :: [] ∧
    255 < 2 ^ (answering [.fail 255]).cfg.infoW ∧ 0 < 2 ^ (answering [.fail 0]).cfg.infoW :=
  ⟨⟨rfl, rfl, rfl, rfl⟩, rfl, by decide, by decide⟩

/-- EmptySeqAnswersOk. -/
theorem witness_empty_seq : between (doing []) ∧ (doing []).seq = [] := ⟨⟨rfl, rfl, rfl, rfl⟩, rfl⟩

/-- UnansweredWriteHoldsTheBlock: no look and three looks. -/
theorem witness_unanswered :
    let s := answering [.notYet, .notYet, .notYet, .ok]
    s.busy = true ∧ s.delay = none ∧ s.busValid = true ∧ s.rst = [] ∧ s.resp = none ∧
    s.answers = List.replicate 3 .notYet ++ [.ok] ∧ s.answers = List.replicate 0 .notYet ++ s.answers := by decide

/-- HostTakesItsTurn: each of the four clauses. -/
theorem witness_host_turn :
    State.reset.rstNow = false ∧ State.reset.busy = false ∧ State.reset.reqValid = false ∧
    ({ State.reset with macroRest := [.request 0x300] } : State).macroRest = .request 0x300 :: [] ∧
    ({ State.reset with macroRest := [.wait 0] } : State).macroRest = .wait 0 :: [] ∧
    ({ State.reset with plan := [[]] } : State).macroRest = [] ∧ ({ State.reset with plan := [[]] } : State).plan = [] :: [] ∧
    State.reset.macroRest = [] ∧ State.reset.plan = [] := by decide

/-- ResetInputResetsTheBlock and the reset clause of OnlyBlRequestAndResetWriteBl. -/
theorem witness_reset :
    let s : State := { answering [.ok] with rst := [true], bl := false }
    s.rstNow = true ∧ step s = .next (next s) ∧ (next s).bl = s.cfg.blReset ∧ (next s).bl ≠ s.bl :=
  ⟨rfl, rfl, rfl, by decide⟩

/-- EveryStepKeepsTheInvariant, TimelineGrowsAtItsEnd: a request in progress with a write outstanding has the invariant. -/
theorem witness_invariant : (answering [.ok]).Inv ∧ step (answering [.ok]) = .next (next (answering [.ok])) := by
  have idleOk : (answering [.ok]).IdleOk := fun h => absurd h (by decide)
  have busOk : (answering [.ok]).BusOk := fun v h => by cases h; exact ⟨rfl, rfl⟩
  have delayOk : (answering [.ok]).DelayOk := fun t h => absurd h (by simp [answering, State.reset, State.resetWith])
  have clean : opsClean Config.standard (nibbleOps Config.standard true true 0xA) := by
    unfold opsClean
    decide
  exact ⟨⟨by decide, idleOk, busOk, delayOk, by decide, clean, by decide, fun h => absurd h (by decide), by decide,
    by decide⟩, rfl⟩

/-- InvariantHoldsAtReset: parameters other than the defaults. -/
theorem witness_parameters :
    ({ Config.standard with enMask := 0x01, rsMask := 0x04, blReset := false } : Config).wellFormed = true := by decide

/-- ParametersNeverChange, ThePastIsForgotten: a run of two steps, and a state that differs in the past alone. -/
theorem witness_run :
    run 2 (doing [.write 0xA9]) = .next (next (next { doing [.write 0xA9] with answers := [] })) ∧
    sameBut (doing [.write 0xA9]) { doing [.write 0xA9] with trace := [.wrote 0x28], op := 0x1, waited := 200 } :=
  ⟨rfl, rfl⟩

/-- TraceGrowsByAnsweredWrites: each kind of item, and each kind of aside. -/
theorem witness_trace_items :
    (next (answering [.ok])).trace = [] ++ [.wrote 0xA9] ∧ (next (answering [.fail 1])).trace = [] ++ [.writeFailed 0xA9] ∧
    (next { doing [.delay 5] with delay := some 5 }).trace = [] ++ [.gap 5] ∧
    (next { answering [] with rst := [true] }).asides = [] ++ [.cutWrite 0 0xA9] ∧
    (next { State.reset with macroRest := [.wait 7] }).asides = [] ++ [.hostWait 0 7] := by decide

/-- OneResponsePerRequest: a step that responds and one that does not. -/
theorem witness_responses :
    (doing []).rstNow = false ∧ (next (doing [])).respValid = true ∧ (next (doing [.delay 1])).resp = none := by decide

/-- MachineRefinesThePseudocode: a success, a failure after a look without an answer. -/
theorem witness_pseudocode :
    let s : State := { doing [.write 0x08] with answers := [.ok] }
    let u : State := { doing [.write 0x08, .delay 1] with answers := [.notYet, .fail 9] }
    s.busy = true ∧ s.delay = none ∧ s.bus = none ∧ s.rst = [] ∧
    runOps s.cfg s.seq (finalAnswers s.answers) = some ([.wrote 0x08, .gap 200], ⟨.ok, 0⟩) ∧
    runOps u.cfg u.seq (finalAnswers u.answers) = some ([.writeFailed 0x08], ⟨.transportFail, 9⟩) := by decide

/-- The word `w` on the port of an idle block, with the transport's answers `as`. -/
def loaded (w : ReqWord) (as : List Answer) : State := { idle true w with answers := as }

theorem loaded_ready (w : ReqWord) (as : List Answer) : ready (loaded w as) :=
  ⟨rfl, fun _ => ⟨rfl, rfl, rfl⟩, rfl, rfl, fun _ h => by cases h⟩

/-- EveryRequestRunsToOk: NIB, a reserved code, INIT. -/
theorem witness_ok_scripts :
    ready (loaded 0x03A [.ok, .ok, .ok]) ∧ writeCount (decode 0x03A) = 3 ∧ writeCount (decode 0xD00) = 0 ∧
    writeCount (decode 0xB00) = 48 ∧
    (loaded 0x03A [.ok, .ok, .ok]).answers = List.replicate 3 .ok ++ [] := ⟨loaded_ready _ _, rfl, rfl, rfl, rfl⟩

/-- FailureIsPreciseAtABusWrite: the first and the last write of a NIB. -/
theorem witness_fail_scripts :
    ready (loaded 0x03A [.ok, .ok, .fail 255]) ∧ 0 < writeCount (decode 0x03A) ∧ 2 < writeCount (decode 0x03A) ∧
    (loaded 0x03A [.ok, .ok, .fail 255]).answers = List.replicate 2 .ok ++ .fail 255 :: [] ∧
    (loaded 0x03A [.fail 0]).answers = List.replicate 0 .ok ++ .fail 0 :: [] ∧ 255 < 2 ^ State.reset.cfg.infoW :=
  ⟨loaded_ready _ _, by decide, by decide, rfl, rfl, by decide⟩

/-- WhatAFailureLeavesBehind: the first and the sixth write of a CMD. -/
theorem witness_fail_command :
    ready (loaded 0x128 [.ok, .ok, .ok, .ok, .ok, .fail 1]) ∧ decode 0x128 = .cmd 0x28 ∧ 0 < 6 ∧ 5 < 6 ∧
    (loaded 0x128 [.ok, .ok, .ok, .ok, .ok, .fail 1]).answers = List.replicate 5 .ok ++ .fail 1 :: [] ∧
    enableHigh Config.standard 0x00 = false := ⟨loaded_ready _ _, rfl, by decide, by decide, rfl, rfl⟩

/-- The table of R180, written out: Enable high, by whether the failed write got through (first list: it did not), and the
nibbles taken. -/
theorem test_table_R180 :
    (List.range 6).map (enableAfterFailure false) = [false, false, true, false, false, true] ∧
    (List.range 6).map (enableAfterFailure true) = [false, true, false, false, true, false] ∧
    (List.range 6).map (takenAfterFailure false) = [0, 0, 0, 1, 1, 1] ∧
    (List.range 6).map (takenAfterFailure true) = [0, 0, 1, 1, 1, 2] := by decide

/-- TrackedPosition: both sides of the clamp, with two rows and with more than four asked for. -/
theorem witness_rows :
    host2x16.wellFormed = true ∧ 1 < min host2x16.rows 4 ∧ min host2x16.rows 4 ≤ 2 ∧
    ({ host2x16 with rows := 9 } : HostConfig).wellFormed = true ∧ 3 < min 9 4 ∧ min 9 4 ≤ 4 := by decide

/-- FixedMacrosExpand: well-formed parameters. -/
theorem witness_macro_parameters : Config.standard.wellFormed = true := by decide

/-- MacrosKeepTheHostsDuties: the default opcodes are distinct. -/
theorem witness_distinct_commands : distinctCommands Config.standard := by
  intro i hi
  cases i with
  | cmd b => exact absurd rfl (hi b)
  | nib bl rs n => simp [commandByte]
  | dat b => simp [commandByte]
  | init => simp [commandByte]
  | bl v => simp [commandByte]
  | reservedD => simp [commandByte]
  | reservedE => simp [commandByte]
  | reservedF => simp [commandByte]
  | clr => exact ⟨fun _ => rfl, fun h => absurd h (by decide), fun n f h => absurd h (by revert n f; decide),
      fun d cu b h => absurd h (by revert d cu b; decide)⟩
  | home => exact ⟨fun h => absurd h (by decide), fun _ => rfl, fun n f h => absurd h (by revert n f; decide),
      fun d cu b h => absurd h (by revert d cu b; decide)⟩
  | entry x y =>
    exact ⟨fun h => absurd h (by revert x y; decide), fun h => absurd h (by revert x y; decide),
      fun n f h => absurd h (by revert x y n f; decide), fun d cu b h => absurd h (by revert x y d cu b; decide)⟩
  | disp x y z =>
    exact ⟨fun h => absurd h (by revert x y z; decide), fun h => absurd h (by revert x y z; decide),
      fun n f h => absurd h (by revert x y z n f; decide), fun _ _ _ _ => ⟨x, y, z, rfl⟩⟩
  | shift x y =>
    exact ⟨fun h => absurd h (by revert x y; decide), fun h => absurd h (by revert x y; decide),
      fun n f h => absurd h (by revert x y n f; decide), fun d cu b h => absurd h (by revert x y d cu b; decide)⟩
  | func x y z =>
    refine ⟨fun h => absurd h (by revert x y z; decide), fun h => absurd h (by revert x y z; decide), fun n f h => ?_,
      fun d cu b h => absurd h (by revert x y z d cu b; decide)⟩
    cases x
    · exact absurd h (by revert y z n f; decide)
    · exact ⟨y, z, rfl⟩
  | cgaddr a =>
    exact ⟨fun h => absurd h (by revert a; decide), fun h => absurd h (by revert a; decide),
      fun n f h => absurd h (by revert n f a; decide), fun d cu b h => absurd h (by revert d cu b a; decide)⟩
  | ddaddr a =>
    exact ⟨fun h => absurd h (by revert a; decide), fun h => absurd h (by revert a; decide),
      fun n f h => absurd h (by revert n f a; decide), fun d cu b h => absurd h (by revert d cu b a; decide)⟩

/-- CursorChangeOwesItsWait: its hypotheses, and a wait on each side of the bound. -/
theorem witness_cursor_change : Config.standard.wellFormed = true ∧ distinctCommands Config.standard ∧
    Config.standard.tCursorMode ≤ 50000 ∧ ¬ Config.standard.tCursorMode ≤ 49999 :=
  ⟨by decide, witness_distinct_commands, by decide, by decide⟩

/-- WrittenFormIsTheEncodedWord: both cases of its condition. -/
theorem witness_written : Instr.reservedD ∈ reservedCodes ∧ Instr.clr ∉ reservedCodes := by decide

end Sys2Proof.Tests
end

section
/-! Every step keeps the parameters (R2, R14). -/

namespace Sys2Proof.Machine

theorem State.sequence_cfg (s : State) : s.sequence.cfg = s.cfg := by
  rcases s.sequence_cases with ⟨t, -, h⟩ | ⟨v, -, -, ⟨-, h⟩ | ⟨-, h⟩ | ⟨i, -, h⟩⟩ |
    ⟨-, -, ⟨-, h⟩ | ⟨v, rest, -, h⟩ | ⟨t, rest, -, h⟩⟩ <;> simp [h]

theorem State.hostTurn_cfg (s : State) : s.hostTurn.cfg = s.cfg := by
  rcases s.hostTurn_cases with ⟨w, rest, -, h⟩ | ⟨t, rest, -, h⟩ | ⟨-, -, h⟩ | ⟨m, ms, -, -, h⟩ <;> simp [h]

theorem step_cfg (s t : State) (h : step s = .next t) : t.cfg = s.cfg := by
  rcases step_cases s t h with ⟨-, rfl⟩ | ⟨-, -, rfl⟩ | ⟨-, -, -, rfl⟩ | ⟨-, -, -, rfl⟩
  · simp
  · simp [State.sequence_cfg]
  · simp
  · simp [State.hostTurn_cfg]

theorem run_cfg (n : Nat) (s t : State) (h : run n s = .next t) : t.cfg = s.cfg := by
  induction n generalizing s with
  | zero =>
    rw [run_zero] at h
    cases h
    rfl
  | succ n ih =>
    obtain ⟨u, hu, hn⟩ := run_inv n s t h
    exact (ih u hn).trans (step_cfg s u hu)

/-- Settles O37, by induction on the length of the run: no step writes `cfg`, and `bus_addr` is read from it. -/
theorem parametersNeverChange : Obligations.ParametersNeverChange := fun n s t h =>
  have hc := run_cfg n s t h
  ⟨hc, congrArg Config.devAddr hc⟩

end Sys2Proof.Machine
end

section
/-! What a request puts into SEQ: no byte of it has the spare bit (R3), and it is no longer than INIT's 85
micro-operations (R15). -/

namespace Sys2Proof.Machine

/-! ### The spare bits of a bus byte -/

/-- None of the four masks of the bus byte reaches a spare bit. -/
theorem masks_and_spareBits (c : Config) : 0xF0#8 &&& spareBits c = 0#8 ∧ c.blMask &&& spareBits c = 0#8 ∧
    c.rsMask &&& spareBits c = 0#8 ∧ c.enMask &&& spareBits c = 0#8 := by
  refine ⟨?_, ?_, ?_, ?_⟩ <;> ext i hi <;> simp +contextual [spareBits]

theorem busByte_and_spareBits (c : Config) (rs bl en : Bool) (n : Nibble) :
    busByte c rs bl en n &&& spareBits c = 0#8 := by
  obtain ⟨hn, hb, hr, he⟩ := masks_and_spareBits c
  have hn : (n.setWidth 8 <<< 4) &&& spareBits c = 0#8 := by
    rw [← placedNibble_high, BitVec.and_assoc, hn, BitVec.and_zero]
  simp [busByte, or_and_right, hn, sel_and _ _ _ _ hb, sel_and _ _ _ _ hr, sel_and _ _ _ _ he, sel_zero]

theorem backlightByte_and_spareBits (c : Config) (v : Bool) : backlightByte c v &&& spareBits c = 0#8 := by
  rw [backlightByte, sel_and _ _ _ _ (masks_and_spareBits c).2.1, sel_zero]

/-! ### Clean lists of micro-operations -/

@[simp] theorem opsClean_nil (c : Config) : opsClean c [] := by simp [opsClean, opsBytes]

@[simp] theorem opsClean_delay_cons (c : Config) (t : Nat) (ops : List MicroOp) :
    opsClean c (.delay t :: ops) ↔ opsClean c ops := Iff.rfl

@[simp] theorem opsClean_write_cons (c : Config) (v : Byte) (ops : List MicroOp) :
    opsClean c (.write v :: ops) ↔ v &&& spareBits c = 0#8 ∧ opsClean c ops := by
  simp [opsClean, opsBytes]

@[simp] theorem opsClean_append (c : Config) (a b : List MicroOp) :
    opsClean c (a ++ b) ↔ opsClean c a ∧ opsClean c b := by
  simp [opsClean, or_imp, forall_and]

@[simp] theorem nibbleOps_clean (c : Config) (rs bl : Bool) (n : Nibble) : opsClean c (nibbleOps c rs bl n) := by
  have low : ∀ a m : Byte, a &&& spareBits c = 0#8 → (a &&& m) &&& spareBits c = 0#8 := fun a m h => by
    rw [BitVec.and_assoc, BitVec.and_comm m, ← BitVec.and_assoc, h, BitVec.zero_and]
  simp [nibbleOps, busByte_enable_set, busByte_and_spareBits, low]

@[simp] theorem byteOps_clean (c : Config) (rs bl : Bool) (b : Byte) : opsClean c (byteOps c rs bl b) := by
  simp [byteOps]

theorem expansion_clean (c : Config) (bl : Bool) (i : Instr) : opsClean c (expansion c bl i) := by
  cases i <;> simp [expansion, initOps, backlightOps, backlightByte_and_spareBits]

theorem expansion_length (c : Config) (bl : Bool) (i : Instr) : (expansion c bl i).length ≤ 85 := by
  cases i <;> simp [expansion, nibbleOps_length, byteOps_length, initOps_length, backlightOps]

theorem opsClean_tail {c : Config} {ops : List MicroOp} (h : opsClean c ops) : opsClean c ops.tail := by
  rcases ops with _ | ⟨v | t, rest⟩
  · exact h
  · exact ((opsClean_write_cons c v rest).1 h).2
  · exact h

theorem opsClean_head {c : Config} {ops : List MicroOp} {v : Byte} (h : opsClean c ops)
    (hv : ops.head? = some (.write v)) : v &&& spareBits c = 0#8 := by
  obtain ⟨rest, rfl⟩ := List.head?_eq_some_iff.1 hv
  exact ((opsClean_write_cons c v rest).1 h).1

end Sys2Proof.Machine
end

section
/-! The invariant by its parts: what it asks of the block, of SEQ and of the record of the past. Each operation of the
machine touches one or two of them. -/

namespace Sys2Proof.Machine

/-! ### The parts -/

/-- The clauses of the invariant on BUSY, the ports and the delay. -/
structure State.BlockOk (s : State) : Prop where
  idle : s.IdleOk
  bus : s.BusOk
  delay : s.DelayOk
  pulse : s.resp ≠ none → s.busy = false

/-- The clauses on SEQ: no spare bit (R3), no more than INIT's length (R15). -/
structure SeqOk (c : Config) (ops : List MicroOp) : Prop where
  clean : opsClean c ops
  short : ops.length ≤ 85

/-- The clauses on the trace, the asides and the time really spent. -/
structure PastOk (c : Config) (tr : List TraceItem) (as : List Aside) (waited : Nat) : Prop where
  clean : ∀ v ∈ emittedBytes tr ++ cutBytes as, v &&& spareBits c = 0
  passed : gapTotal tr + hostWaitTotal as ≤ waited
  within : ∀ a ∈ as, a.position ≤ tr.length

theorem State.inv_iff (s : State) : s.Inv ↔
    s.cfg.wellFormed = true ∧ s.BlockOk ∧ SeqOk s.cfg s.seq ∧ PastOk s.cfg s.trace s.asides s.waited :=
  ⟨fun ⟨wf, idle, bus, delay, short, clean, emitted, pulse, passed, within⟩ =>
    ⟨wf, ⟨idle, bus, delay, pulse⟩, ⟨clean, short⟩, ⟨emitted, passed, within⟩⟩,
  fun ⟨wf, block, ops, past⟩ =>
    ⟨wf, block.idle, block.bus, block.delay, ops.short, ops.clean, past.clean, block.pulse, past.passed, past.within⟩⟩

/-! ### The four situations of the block -/

theorem State.BlockOk.of_idle {s : State} (hbusy : s.busy = false) (hseq : s.seq = []) (hbus : s.bus = none)
    (hdelay : s.delay = none) : s.BlockOk where
  idle _ := ⟨hseq, hbus, hdelay⟩
  bus v h := by simp [hbus] at h
  delay t h := by simp [hdelay] at h
  pulse _ := hbusy

theorem State.BlockOk.of_between {s : State} (hbusy : s.busy = true) (hresp : s.resp = none) (hbus : s.bus = none)
    (hdelay : s.delay = none) : s.BlockOk where
  idle h := by simp [hbusy] at h
  bus v h := by simp [hbus] at h
  delay t h := by simp [hdelay] at h
  pulse h := absurd hresp h

theorem State.BlockOk.of_awaiting {s : State} {v : Byte} (hbusy : s.busy = true) (hresp : s.resp = none)
    (hbus : s.bus = some v) (hdelay : s.delay = none) (hseq : s.seq.head? = some (.write v)) : s.BlockOk where
  idle h := by simp [hbusy] at h
  bus w h := by
    obtain rfl : v = w := by simpa [hbus] using h
    exact ⟨hdelay, hseq⟩
  delay t h := by simp [hdelay] at h
  pulse h := absurd hresp h

theorem State.BlockOk.of_delaying {s : State} {t : Nat} (hbusy : s.busy = true) (hresp : s.resp = none)
    (hbus : s.bus = none) (hdelay : s.delay = some t) (htmr : t ≤ s.tmr)
    (hseq : (t = s.cfg.tSettle ∧ ∃ v, s.seq.head? = some (.write v)) ∨ s.seq.head? = some (.delay t)) :
    s.BlockOk where
  idle h := by simp [hbusy] at h
  bus v h := by simp [hbus] at h
  delay u h := by
    obtain rfl : t = u := by simpa [hdelay] using h
    exact ⟨hbus, htmr, hseq⟩
  pulse h := absurd hresp h

/-! ### SEQ and the past under one more item -/

theorem SeqOk.nil (c : Config) : SeqOk c [] := ⟨opsClean_nil c, by simp⟩

theorem SeqOk.tail {c : Config} {ops : List MicroOp} (h : SeqOk c ops) : SeqOk c ops.tail :=
  ⟨opsClean_tail h.clean, by have := h.short; simp; omega⟩

theorem SeqOk.expansion (c : Config) (bl : Bool) (i : Instr) : SeqOk c (expansion c bl i) :=
  ⟨expansion_clean c bl i, expansion_length c bl i⟩

theorem PastOk.nil (c : Config) : PastOk c [] [] 0 := ⟨by simp [emittedBytes, cutBytes], le_refl 0, by simp⟩

/-- A trace item with clean bytes, whose gap lasts no longer than the time `d` that has passed, keeps the record sound. -/
theorem PastOk.traceItem {c : Config} {tr : List TraceItem} {as : List Aside} {waited : Nat} (h : PastOk c tr as waited)
    (x : TraceItem) (d : Nat) (hx : ∀ v ∈ emittedBytes [x], v &&& spareBits c = 0) (hd : gapTotal [x] ≤ d) :
    PastOk c (tr ++ [x]) as (waited + d) where
  clean v hv := by
    have old := h.clean v
    have new := hx v
    simp only [emittedBytes_append, List.mem_append] at hv old
    tauto
  passed := by
    have := h.passed
    rw [gapTotal_append]
    omega
  within a ha := by
    have := h.within a ha
    simp
    omega

/-- The same of an aside noted where the trace now ends. -/
theorem PastOk.aside {c : Config} {tr : List TraceItem} {as : List Aside} {waited : Nat} (h : PastOk c tr as waited)
    (a : Aside) (d : Nat) (ha : ∀ v ∈ cutBytes [a], v &&& spareBits c = 0) (hp : a.position = tr.length)
    (hd : hostWaitTotal [a] ≤ d) : PastOk c tr (as ++ [a]) (waited + d) where
  clean v hv := by
    have old := h.clean v
    have new := ha v
    simp only [cutBytes_append, List.mem_append] at hv old
    tauto
  passed := by
    have := h.passed
    rw [hostWaitTotal_append]
    omega
  within b hb := by
    rcases List.mem_append.1 hb with hb | hb
    · exact h.within b hb
    · rw [List.mem_singleton.1 hb, hp]

/-! ### Reset -/

theorem inv_resetWith (c : Config) (h : c.wellFormed = true) : (State.resetWith c).Inv :=
  (State.inv_iff _).2 ⟨h, .of_idle rfl rfl rfl rfl, .nil c, .nil c⟩

/-- Settles O34: the reset state is idle, and its record is empty. -/
theorem invariantHoldsAtReset : Obligations.InvariantHoldsAtReset :=
  ⟨inv_resetWith, inv_resetWith Config.standard (by decide)⟩

section

variable {s : State}

/-- The byte of an outstanding write is one of SEQ's, so it is clean. -/
theorem State.Inv.bus_clean (h : s.Inv) {v : Byte} (hv : s.bus = some v) : v &&& spareBits s.cfg = 0 :=
  have ⟨_, block, ops, _⟩ := s.inv_iff.1 h
  opsClean_head ops.clean (block.bus v hv).2

theorem State.Inv.applyReset (h : s.Inv) : s.applyReset.Inv := by
  obtain ⟨wf, _, _, past⟩ := s.inv_iff.1 h
  refine (State.inv_iff _).2 ⟨wf, .of_idle rfl rfl rfl rfl, .nil _, ?_⟩
  rcases hv : s.bus with _ | v
  · simpa [hv] using past
  · simpa [hv] using past.aside (.cutWrite s.trace.length v) 0 (by simpa [cutBytes] using h.bus_clean hv) rfl le_rfl

/-! ### The request port and the host -/

theorem State.Inv.beginStep (h : s.Inv) : s.beginStep.Inv :=
  have ⟨wf, block, ops, past⟩ := s.inv_iff.1 h
  (State.inv_iff _).2 ⟨wf, ⟨block.idle, block.bus, block.delay, fun h => absurd rfl h⟩, ops, past⟩

/-- An idle block that accepts a clean and short list, with whatever is written to BL, keeps the invariant. -/
theorem State.Inv.accept (h : s.Inv) (hbusy : s.busy = false) (hresp : s.resp = none) (v : Bool) {ops : List MicroOp}
    (hops : SeqOk s.cfg ops) : ((s.writeBl v).accept ops).Inv :=
  have ⟨wf, block, _, past⟩ := s.inv_iff.1 h
  have ⟨_, hbus, hdelay⟩ := block.idle hbusy
  (State.inv_iff _).2 ⟨wf, .of_between rfl hresp hbus hdelay, hops, past⟩

theorem State.Inv.hostWait (h : s.Inv) (t : Nat) : (s.hostWait t).Inv :=
  have ⟨wf, block, ops, past⟩ := s.inv_iff.1 h
  (State.inv_iff _).2 ⟨wf, ⟨block.idle, block.bus, block.delay, block.pulse⟩, ops,
    past.aside (.hostWait s.trace.length t) _ (by simp [cutBytes]) rfl (by simp [hostWaitTotal])⟩

theorem State.Inv.hostTurn (h : s.Inv) : s.hostTurn.Inv := by
  rcases s.hostTurn_cases with ⟨w, rest, -, ht⟩ | ⟨t, rest, -, ht⟩ | ⟨-, -, ht⟩ | ⟨m, ms, -, -, ht⟩ <;> rw [ht]
  · exact h
  · exact State.Inv.hostWait (s := { s with macroRest := rest }) h t
  · exact h
  · exact h

/-! ### The sequencer of a busy block -/

theorem State.Inv.endDelay (h : s.Inv) (hbusy : s.busy = true) (hresp : s.resp = none) {t : Nat}
    (ht : s.delay = some t) : (s.endDelay t).Inv :=
  have ⟨wf, block, ops, past⟩ := s.inv_iff.1 h
  have ⟨hbus, htmr, _⟩ := block.delay t ht
  (State.inv_iff _).2 ⟨wf, .of_between hbusy hresp hbus rfl, ops.tail,
    past.traceItem (.gap t) s.tmr (by simp [emittedBytes]) (by simpa [gapTotal] using htmr)⟩

theorem State.Inv.takeAnswer (h : s.Inv) : s.takeAnswer.Inv := by
  unfold State.takeAnswer
  split <;> exact h

theorem State.Inv.writeSucceeded (h : s.Inv) (hbusy : s.busy = true) (hresp : s.resp = none) {v : Byte}
    (hv : s.bus = some v) : (s.writeSucceeded v).Inv :=
  have ⟨wf, block, ops, past⟩ := s.inv_iff.1 h
  (State.inv_iff _).2 ⟨wf,
    .of_delaying hbusy hresp rfl rfl (by simp) (.inl ⟨rfl, v, (block.bus v hv).2⟩), ops,
    past.traceItem (.wrote v) 0 (by simpa [emittedBytes] using h.bus_clean hv) le_rfl⟩

theorem State.Inv.transportFailure (h : s.Inv) {v : Byte} (hv : s.bus = some v) (i : Nat) :
    (s.transportFailure v i).Inv :=
  have ⟨wf, block, _, past⟩ := s.inv_iff.1 h
  (State.inv_iff _).2 ⟨wf, .of_idle rfl rfl rfl (block.bus v hv).1, .nil _,
    past.traceItem (.writeFailed v) 0 (by simpa [emittedBytes] using h.bus_clean hv) le_rfl⟩

theorem State.Inv.respondOk (h : s.Inv) (hseq : s.seq = []) (hbus : s.bus = none) (hdelay : s.delay = none) :
    s.respondOk.Inv :=
  have ⟨wf, _, ops, past⟩ := s.inv_iff.1 h
  (State.inv_iff _).2 ⟨wf, .of_idle rfl hseq hbus hdelay, ops, past⟩

theorem State.Inv.issueWrite (h : s.Inv) (hbusy : s.busy = true) (hresp : s.resp = none) (hdelay : s.delay = none)
    {v : Byte} (hseq : s.seq.head? = some (.write v)) : (s.issueWrite v).Inv :=
  have ⟨wf, _, ops, past⟩ := s.inv_iff.1 h
  (State.inv_iff _).2 ⟨wf, .of_awaiting hbusy hresp rfl hdelay hseq, ops, past⟩

theorem State.Inv.startDelay (h : s.Inv) (hbusy : s.busy = true) (hresp : s.resp = none) (hbus : s.bus = none)
    {t : Nat} (hseq : s.seq.head? = some (.delay t)) : (s.startDelay t).Inv :=
  have ⟨wf, _, ops, past⟩ := s.inv_iff.1 h
  (State.inv_iff _).2 ⟨wf, .of_delaying hbusy hresp hbus rfl (by simp) (.inr hseq), ops, past⟩

theorem State.Inv.sequence (h : s.Inv) (hbusy : s.busy = true) (hresp : s.resp = none) : s.sequence.Inv := by
  rcases s.sequence_cases with ⟨t, hdelay, hs⟩ | ⟨v, hdelay, hbus, ⟨-, hs⟩ | ⟨-, hs⟩ | ⟨i, -, hs⟩⟩ |
    ⟨hdelay, hbus, ⟨hseq, hs⟩ | ⟨v, rest, hseq, hs⟩ | ⟨t, rest, hseq, hs⟩⟩ <;> rw [hs]
  · exact h.endDelay hbusy hresp hdelay
  · exact h.takeAnswer
  · exact h.takeAnswer.writeSucceeded (by simpa using hbusy) (by simpa using hresp) (by simpa using hbus)
  · exact h.takeAnswer.transportFailure (by simpa using hbus) i
  · exact h.respondOk hseq hbus hdelay
  · exact h.issueWrite hbusy hresp hdelay (by simp [hseq])
  · exact h.startDelay hbusy hresp hbus (by simp [hseq])

/-! ### The step -/

theorem State.Inv.step {t : State} (h : s.Inv) (hs : step s = .next t) : t.Inv := by
  rcases step_cases s t hs with ⟨-, rfl⟩ | ⟨-, hbusy, rfl⟩ | ⟨-, hbusy, -, rfl⟩ | ⟨-, -, -, rfl⟩
  · exact h.beginStep.applyReset
  · exact h.beginStep.sequence hbusy rfl
  · exact h.beginStep.accept hbusy rfl _ (.expansion _ _ _)
  · exact h.beginStep.hostTurn

end

/-- Settles O35: reset, each action of the sequencer, acceptance and the host's turn keep the invariant by its parts. -/
theorem everyStepKeepsTheInvariant : Obligations.EveryStepKeepsTheInvariant := fun _ _ h hs => h.step hs

end Sys2Proof.Machine
end

section
/-! The past is forgotten (R21, R155): each operation, run on two states that differ only in what is recorded and
in the block's answers and latch, adds the same to both records and leaves states that again differ only so. -/

namespace Sys2Proof.Machine

open Sys2Proof.Says

/-- From `s` to `t` and from `s'` to `t'` the machine does the same: the same further trace and responses, no further
difference, and the response port agrees afterwards if it agreed before. -/
structure MovesAlike (s s' t t' : State) : Prop where
  same : sameBut t t'
  record : ∃ (items : List TraceItem) (rs : List Response), t.trace = s.trace ++ items ∧ t'.trace = s'.trace ++ items ∧
    t.responses = s.responses ++ rs ∧ t'.responses = s'.responses ++ rs
  resp : s'.resp = s.resp → t'.resp = t.resp

theorem MovesAlike.refl {s s' : State} (h : sameBut s s') : MovesAlike s s' s s' :=
  ⟨h, ⟨[], [], by simp⟩, id⟩

theorem MovesAlike.trans {s s' t t' u u' : State} (h : MovesAlike s s' t t') (g : MovesAlike t t' u u') :
    MovesAlike s s' u u' := by
  obtain ⟨-, ⟨items, rs, htr, htr', hrs, hrs'⟩, hresp⟩ := h
  obtain ⟨same, ⟨items', rs', gtr, gtr', grs, grs'⟩, gresp⟩ := g
  exact ⟨same, ⟨items ++ items', rs ++ rs', by simp [gtr, htr], by simp [gtr', htr'], by simp [grs, hrs],
    by simp [grs', hrs']⟩, gresp ∘ hresp⟩

/-- An operation that leaves the record alone moves alike as soon as its results are the same but for the past. -/
theorem MovesAlike.of_silent {s s' t t' : State} (same : sameBut t t') (htr : t.trace = s.trace)
    (htr' : t'.trace = s'.trace) (hrs : t.responses = s.responses) (hrs' : t'.responses = s'.responses)
    (hresp : s'.resp = s.resp → t'.resp = t.resp) : MovesAlike s s' t t' :=
  ⟨same, ⟨[], [], by simp [*]⟩, hresp⟩

section

variable {s s' : State}

theorem sameBut_iff : sameBut s s' ↔ ∃ trace asides responses waited resp op arg,
    s' = { s with trace := trace, asides := asides, responses := responses, waited := waited, resp := resp, op := op,
                  arg := arg } :=
  ⟨fun h => ⟨_, _, _, _, _, _, _, h⟩, by rintro ⟨_, _, _, _, _, _, _, rfl⟩; rfl⟩

theorem MovesAlike.beginStep (h : sameBut s s') : MovesAlike s s' s.beginStep s'.beginStep := by
  obtain ⟨_, _, _, _, _, _, _, rfl⟩ := sameBut_iff.1 h
  exact .of_silent rfl rfl rfl rfl rfl fun _ => rfl

theorem MovesAlike.applyReset (h : sameBut s s') : MovesAlike s s' s.applyReset s'.applyReset := by
  obtain ⟨_, _, _, _, _, _, _, rfl⟩ := sameBut_iff.1 h
  exact .of_silent rfl rfl rfl rfl rfl fun _ => rfl

theorem MovesAlike.accept (h : sameBut s s') (v : Bool) (ops : List MicroOp) :
    MovesAlike s s' ((s.writeBl v).accept ops) ((s'.writeBl v).accept ops) := by
  obtain ⟨_, _, _, _, _, _, _, rfl⟩ := sameBut_iff.1 h
  exact .of_silent rfl rfl rfl rfl rfl id

theorem MovesAlike.hostTurn (h : sameBut s s') : MovesAlike s s' s.hostTurn s'.hostTurn := by
  obtain ⟨_, _, _, _, _, _, _, rfl⟩ := sameBut_iff.1 h
  unfold State.hostTurn
  dsimp only
  split
  · exact .of_silent rfl rfl rfl rfl rfl id
  · exact .of_silent rfl rfl rfl rfl rfl id
  · split
    · exact .refl h
    · exact .of_silent rfl rfl rfl rfl rfl id

theorem MovesAlike.takeAnswer (h : sameBut s s') : MovesAlike s s' s.takeAnswer s'.takeAnswer := by
  obtain ⟨_, _, _, _, _, _, _, rfl⟩ := sameBut_iff.1 h
  unfold State.takeAnswer
  dsimp only
  split <;> exact .of_silent rfl rfl rfl rfl rfl id

theorem MovesAlike.writeSucceeded (h : sameBut s s') (v : Byte) :
    MovesAlike s s' (s.writeSucceeded v) (s'.writeSucceeded v) := by
  obtain ⟨_, _, _, _, _, _, _, rfl⟩ := sameBut_iff.1 h
  exact ⟨rfl, ⟨[.wrote v], [], by simp⟩, id⟩

theorem MovesAlike.transportFailure (h : sameBut s s') (v : Byte) (i : Nat) :
    MovesAlike s s' (s.transportFailure v i).hostStops (s'.transportFailure v i).hostStops := by
  obtain ⟨_, _, _, _, _, _, _, rfl⟩ := sameBut_iff.1 h
  exact ⟨rfl, ⟨[.writeFailed v], [⟨.transportFail, infoPort s.cfg i⟩], by simp⟩, fun _ => rfl⟩

theorem MovesAlike.endDelay (h : sameBut s s') (t : Nat) : MovesAlike s s' (s.endDelay t) (s'.endDelay t) := by
  obtain ⟨_, _, _, _, _, _, _, rfl⟩ := sameBut_iff.1 h
  exact ⟨rfl, ⟨[.gap t], [], by simp⟩, id⟩

theorem MovesAlike.lookAtBus (h : sameBut s s') (v : Byte) : MovesAlike s s' (s.lookAtBus v) (s'.lookAtBus v) := by
  have taken := MovesAlike.takeAnswer h
  have peek : s'.peekAnswer = s.peekAnswer := by
    obtain ⟨_, _, _, _, _, _, _, rfl⟩ := sameBut_iff.1 h
    rfl
  unfold State.lookAtBus
  rw [peek]
  split
  · exact taken
  · exact taken.trans (.writeSucceeded taken.same v)
  · exact taken.trans (.transportFailure taken.same v _)

theorem MovesAlike.sequence (h : sameBut s s') : MovesAlike s s' s.sequence s'.sequence := by
  obtain ⟨_, _, _, _, _, _, _, rfl⟩ := sameBut_iff.1 h
  unfold State.sequence
  dsimp only
  split
  · exact .endDelay h _
  · split
    · exact .lookAtBus h _
    · split
      · exact ⟨rfl, ⟨[], [⟨.ok, 0⟩], by simp⟩, fun _ => rfl⟩
      · exact .of_silent rfl rfl rfl rfl rfl id
      · exact .of_silent rfl rfl rfl rfl rfl id

/-- A step begins by ending the response pulse, so after it the response ports agree. -/
theorem MovesAlike.step {t : State} (h : sameBut s s') (hs : step s = .next t) :
    ∃ t', Machine.step s' = .next t' ∧ MovesAlike s s' t t' ∧ t'.resp = t.resp := by
  have begun := MovesAlike.beginStep h
  obtain ⟨u, hu, moved⟩ : ∃ u, Machine.step s' = .next u ∧ MovesAlike s.beginStep s'.beginStep t u := by
    obtain ⟨_, _, _, _, _, _, _, rfl⟩ := sameBut_iff.1 h
    rcases step_cases s t hs with ⟨hr, rfl⟩ | ⟨hr, hb, rfl⟩ | ⟨hr, hb, hv, rfl⟩ | ⟨hr, hb, hv, rfl⟩
    · exact ⟨_, step_reset _ hr, .applyReset begun.same⟩
    · exact ⟨_, step_busy _ hr hb, .sequence begun.same⟩
    · exact ⟨_, step_accept _ hr hb hv, .accept begun.same _ _⟩
    · exact ⟨_, step_host _ hr hb hv, .hostTurn begun.same⟩
  exact ⟨u, hu, begun.trans moved, moved.resp rfl⟩

end

theorem MovesAlike.run (n : Nat) {s s' t : State} (h : sameBut s s') (hs : run n s = .next t) :
    ∃ t', Machine.run n s' = .next t' ∧ MovesAlike s s' t t' ∧ (n ≠ 0 → t'.resp = t.resp) := by
  induction n generalizing s s' with
  | zero =>
    rw [run_zero] at hs
    cases hs
    exact ⟨s', run_zero s', .refl h, by simp⟩
  | succ n ih =>
    obtain ⟨u, hu, hn⟩ := run_inv n s t hs
    obtain ⟨u', hu', first, hresp⟩ := MovesAlike.step h hu
    obtain ⟨t', ht', further, -⟩ := ih first.same hn
    exact ⟨t', (run_succ n s' u' hu').trans ht', first.trans further, fun _ => further.resp hresp⟩

/-- Settles O42: every step moves two such states alike, so a run does, by induction on its length. -/
theorem thePastIsForgotten : Obligations.ThePastIsForgotten := fun n _ _ _ h hs =>
  have ⟨t', ht', ⟨same, ⟨items, rs, htr, htr', hrs, hrs'⟩, _⟩, hresp⟩ := MovesAlike.run n h hs
  ⟨t', ht', same, items, rs, htr, htr', hrs, hrs', hresp⟩

end Sys2Proof.Machine
end

section
/-! What each request leaves the sequencer to do, in the words of the spec, and how an idle block accepts it (R17, R72,
R90, R100 to R107, R120, R122). -/

namespace Sys2Proof.Machine

open Sys2Proof.Says

/-! ### The model's expansion is the spec's -/

theorem busByte_eq_controlBits (c : Config) (rs bl : Bool) (n : Nibble) :
    busByte c rs bl false n = (n.setWidth 8 <<< 4) ||| controlBits c rs bl := by
  simp [busByte, controlBits, sel, BitVec.or_assoc]

theorem nibbleOps_eq_strobe {c : Config} (h : c.wellFormed = true) (rs bl : Bool) (n : Nibble) :
    nibbleOps c rs bl n = strobe c ((n.setWidth 8 <<< 4) ||| controlBits c rs bl) := by
  simp only [nibbleOps, busByte_enable_cleared c h]
  rw [busByte_eq_controlBits, strobe]

theorem byteOps_eq_byteStrobes {c : Config} (h : c.wellFormed = true) (rs bl : Bool) (b : Byte) :
    byteOps c rs bl b = byteStrobes c rs bl b := by
  simp only [byteOps, byteStrobes, nibbleOps_eq_strobe h, hiNibble_placed, loNibble_placed]

/-- R73's nibble operand, in bits 7:4. -/
theorem placedNibble_eq_ofNat : ∀ n : Nibble, n.setWidth 8 <<< 4 = BitVec.ofNat 8 (16 * n.toNat) := by decide

/-- R107: the DDRAM address below the opcode's bit 7 is added as well as OR-ed. -/
theorem ddramOpcode_or : ∀ a : BitVec 7, (0x80 : Byte) ||| a.setWidth 8 = BitVec.ofNat 8 (0x80 + a.toNat) := by decide

theorem flagged_nil (op : Byte) : flagged op [] = op := rfl

theorem flagged_cons (op m : Byte) (x : Bool) (flags : List (Bool × Byte)) :
    flagged op ((x, m) :: flags) = flagged (op ||| sel x m) flags := by
  cases x <;> simp [flagged]

theorem initOps_eq_initSeq {c : Config} (h : c.wellFormed = true) (bl : Bool) : initOps c bl = initSeq c bl := by
  obtain ⟨-, reset8, set4, -, -, -, tReset, tDone, -, -⟩ := c.wellFormed_source h
  simp [initOps, initSeq, byteOps_eq_byteStrobes h, cmdFunction, cmdDisplay, cmdClear, cmdEntry, reset8, set4, tReset,
    tDone]

theorem expansion_eq_requestSeq {c : Config} (h : c.wellFormed = true) (bl : Bool) (i : Instr) :
    expansion c bl i = requestSeq c bl i := by
  obtain ⟨ddram, -⟩ := c.wellFormed_source h
  cases i <;>
    simp only [expansion, requestSeq, nibbleOps_eq_strobe h, byteOps_eq_byteStrobes h, initOps_eq_initSeq h, cmdClear,
      cmdHome, cmdEntry, cmdDisplay, cmdShift, cmdFunction, cmdCgram, cmdDdram, flagged_cons, flagged_nil,
      placedNibble_eq_ofNat, ddram, ddramOpcode_or, BitVec.ofNat_toNat, backlightOps, backlightByte, sel]

theorem blAfter_eq_backlightAfter (i : Instr) (old : Bool) : blAfter i old = backlightAfter i old := by
  cases i <;> rfl

/-! ### Acceptance -/

/-- All that an idle block of the spec does with a request, in the spec's words. -/
theorem exec_eq_accepted (i : Instr) (s : State) (h : s.cfg.wellFormed = true) (hb : s.busy = false) :
    exec i s = .next { accepted s (requestSeq s.cfg s.bl i) with bl := backlightAfter i s.bl } := by
  rw [exec_idle i s hb, expansion_eq_requestSeq h, blAfter_eq_backlightAfter]
  rfl

/-- Settles O7: `exec_eq_accepted` for NIB. -/
theorem nibIsAcceptedWithItsStrobe : Obligations.NibIsAcceptedWithItsStrobe := fun s bl rs n h hb =>
  exec_eq_accepted (.nib bl rs n) s h hb

/-- Settles O8: `exec_eq_accepted` for the two byte requests. -/
theorem cmdAndDatAreAcceptedWithTwoStrobes : Obligations.CmdAndDatAreAcceptedWithTwoStrobes := fun s b h hb =>
  ⟨exec_eq_accepted (.cmd b) s h hb, exec_eq_accepted (.dat b) s h hb⟩

/-- Settles O9: `exec_eq_accepted` for the two builders without operands. -/
theorem clrAndHomeSendTheirOpcode : Obligations.ClrAndHomeSendTheirOpcode := fun s h hb =>
  ⟨exec_eq_accepted .clr s h hb, exec_eq_accepted .home s h hb⟩

/-- Settles O10: `exec_eq_accepted` for the four builders with flags. -/
theorem flagBuildersSendOpcodeAndFlags : Obligations.FlagBuildersSendOpcodeAndFlags := fun s x y z h hb =>
  ⟨exec_eq_accepted (.entry x y) s h hb, exec_eq_accepted (.disp x y z) s h hb, exec_eq_accepted (.shift x y) s h hb,
    exec_eq_accepted (.func x y z) s h hb⟩

/-- Settles O11: `exec_eq_accepted` for the two builders with an address. -/
theorem addressBuildersSendTheAddress : Obligations.AddressBuildersSendTheAddress := fun s a d h hb =>
  ⟨exec_eq_accepted (.cgaddr a) s h hb, exec_eq_accepted (.ddaddr d) s h hb⟩

/-- Settles O12: `exec_eq_accepted` for INIT. -/
theorem initIsTheHandshake : Obligations.InitIsTheHandshake := fun s h hb => exec_eq_accepted .init s h hb

/-- Settles O13: `exec_idle` is enough, since the raw write needs no well-formed parameters. -/
theorem blWritesTheRegisterFirst : Obligations.BlWritesTheRegisterFirst := fun s v hb => exec_idle (.bl v) s hb

/-- Settles O21: what is accepted is the expansion, which reads the parameters and BL, for NIB not even BL. -/
theorem requestsRememberOnlyBl : Obligations.RequestsRememberOnlyBl := by
  intro i s s' hb hb' hcfg hbl
  refine ⟨_, _, exec_idle i s hb, exec_idle i s' hb', ?_, rfl, rfl⟩
  simp only [State.accept_seq, hcfg]
  rcases hbl with hbl | ⟨bl, rs, n, rfl⟩
  · rw [hbl]
  · rfl

/-! ### The bytes of a request -/

/-- Every byte of a nibble is its bus byte, with Enable low or high. -/
theorem mem_nibbleOps_bytes {c : Config} (h : c.wellFormed = true) {rs bl : Bool} {n : Nibble} {v : Byte}
    (hv : v ∈ opsBytes (nibbleOps c rs bl n)) : ∃ en, v = busByte c rs bl en n := by
  rw [nibbleOps_bytes_wellFormed c h] at hv
  simp only [List.mem_cons, List.not_mem_nil, or_false] at hv
  obtain rfl | rfl | rfl := hv
  exacts [⟨false, rfl⟩, ⟨true, rfl⟩, ⟨false, rfl⟩]

theorem mem_byteOps_bytes {c : Config} (h : c.wellFormed = true) {rs bl : Bool} {b v : Byte}
    (hv : v ∈ opsBytes (byteOps c rs bl b)) : ∃ en n, v = busByte c rs bl en n := by
  rw [byteOps_bytes, List.mem_append] at hv
  obtain hv | hv := hv
  all_goals
    obtain ⟨en, rfl⟩ := mem_nibbleOps_bytes h hv
    exact ⟨en, _, rfl⟩

/-- The bytes of the handshake are those of its eight command bytes: its waits write nothing (R120). -/
theorem initOps_bytes {c : Config} (h : c.wellFormed = true) (bl : Bool) :
    opsBytes (initOps c bl) =
      ([0x03, 0x03, 0x03, 0x02, c.opFunction ||| c.fFuncN, c.opDisplay ||| c.fDispD, c.opClear,
        c.opEntry ||| c.fEntryId] : List Byte).flatMap fun b => opsBytes (byteOps c false bl b) := by
  obtain ⟨-, reset8, set4, -⟩ := c.wellFormed_source h
  simp [initOps, opsBytes, cmdFunction, cmdDisplay, cmdClear, cmdEntry, reset8, set4]

theorem mem_initOps_bytes {c : Config} (h : c.wellFormed = true) {bl : Bool} {v : Byte}
    (hv : v ∈ opsBytes (initOps c bl)) : ∃ en n, v = busByte c false bl en n := by
  rw [initOps_bytes h] at hv
  obtain ⟨b, -, hv⟩ := List.mem_flatMap.1 hv
  exact mem_byteOps_bytes h hv

theorem byteOps_bytes_length (c : Config) (rs bl : Bool) (b : Byte) : (opsBytes (byteOps c rs bl b)).length = 6 := rfl

theorem initOps_bytes_length {c : Config} (h : c.wellFormed = true) (bl : Bool) :
    (opsBytes (initOps c bl)).length = 48 := by
  simp [initOps_bytes h, byteOps_bytes_length]

/-- A flag that selects a control mask can be read back. -/
theorem sel_ne_zero {m : Byte} (hm : isControlMask m = true) (x : Bool) : sel x m ≠ 0 ↔ x = true := by
  obtain ⟨-, nonzero⟩ := controlMask_low m (isControlMask_mem m hm)
  cases x <;> simp [nonzero]

theorem busByte_backlight {c : Config} (h : c.wellFormed = true) (rs bl en : Bool) (n : Nibble) :
    busByte c rs bl en n &&& c.blMask ≠ 0 ↔ bl = true := by
  obtain ⟨backlight, -⟩ := busByte_parts c h rs bl en n
  obtain ⟨mask, -⟩ := c.wellFormed_masks h
  rw [backlight, sel_ne_zero mask]

theorem backlightOps_backlight {c : Config} (h : c.wellFormed = true) (x : Bool) :
    ∀ v ∈ opsBytes (backlightOps c x), v &&& c.blMask ≠ 0 ↔ x = true := by
  intro v hv
  obtain rfl : v = sel x c.blMask := by simpa [backlightOps, opsBytes, backlightByte] using hv
  obtain ⟨mask, -⟩ := c.wellFormed_masks h
  rw [sel_and _ _ _ _ BitVec.and_self, sel_ne_zero mask]

/-- Settles O18: every byte is a bus byte with the backlight named, but BL's, which is that bit alone. -/
theorem backlightBitOfEveryBusByte : Obligations.BacklightBitOfEveryBusByte := by
  intro i s h hb
  refine ⟨_, exec_idle i s hb, fun v hv => ?_⟩
  rw [State.accept_seq] at hv
  cases i with
  | nib bl rs n =>
    obtain ⟨en, rfl⟩ := mem_nibbleOps_bytes h hv
    exact busByte_backlight h rs bl en n
  | init =>
    obtain ⟨en, n, rfl⟩ := mem_initOps_bytes h hv
    exact busByte_backlight h false s.bl en n
  | bl x => exact backlightOps_backlight h x v hv
  | reservedD => simp [expansion, opsBytes] at hv
  | reservedE => simp [expansion, opsBytes] at hv
  | reservedF => simp [expansion, opsBytes] at hv
  | _ =>
    obtain ⟨en, n, rfl⟩ := mem_byteOps_bytes h hv
    exact busByte_backlight h _ s.bl en n

/-! ### The strobes of a request -/

theorem enableHigh_busByte {c : Config} (h : c.wellFormed = true) (rs bl en : Bool) (n : Nibble) :
    enableHigh c (busByte c rs bl en n) = en := by
  obtain ⟨-, -, enable, -⟩ := busByte_parts c h rs bl en n
  obtain ⟨-, -, mask, -⟩ := c.wellFormed_masks h
  rw [enableHigh, enable, Bool.eq_iff_iff, bne_iff_ne]
  exact sel_ne_zero mask en

theorem registerSelect_busByte {c : Config} (h : c.wellFormed = true) (rs bl en : Bool) (n : Nibble) :
    (busByte c rs bl en n &&& c.rsMask != 0#8) = rs := by
  obtain ⟨-, select, -⟩ := busByte_parts c h rs bl en n
  obtain ⟨-, mask, -⟩ := c.wellFormed_masks h
  rw [select, Bool.eq_iff_iff, bne_iff_ne]
  exact sel_ne_zero mask rs

theorem hiNibble_masked : ∀ v : Byte, hiNibble (v &&& 0xF0#8) = hiNibble v := by decide

theorem hiNibble_of_placed : ∀ n : Nibble, hiNibble (n.setWidth 8 <<< 4) = n := by decide

theorem hiNibble_busByte {c : Config} (h : c.wellFormed = true) (rs bl en : Bool) (n : Nibble) :
    hiNibble (busByte c rs bl en n) = n := by
  obtain ⟨-, -, -, nibble⟩ := busByte_parts c h rs bl en n
  rw [← hiNibble_masked, nibble, hiNibble_of_placed]

/-- A nibble makes one fall of Enable, and leaves Enable low (R72, R75). -/
theorem strobes_nibbleOps {c : Config} (h : c.wellFormed = true) (rs bl : Bool) (n : Nibble) {before : Byte}
    (hlow : enableHigh c before = false) (rest : List Byte) :
    strobes c before (opsBytes (nibbleOps c rs bl n) ++ rest) =
      (rs, n) :: strobes c (busByte c rs bl false n) rest := by
  simp [nibbleOps_bytes_wellFormed c h, strobes, hlow, enableHigh_busByte h, registerSelect_busByte h,
    hiNibble_busByte h]

/-- A byte makes two, the high nibble first (R90). -/
theorem strobes_byteOps {c : Config} (h : c.wellFormed = true) (rs bl : Bool) (b : Byte) {before : Byte}
    (hlow : enableHigh c before = false) (rest : List Byte) :
    strobes c before (opsBytes (byteOps c rs bl b) ++ rest) =
      (rs, hiNibble b) :: (rs, loNibble b) :: strobes c (busByte c rs bl false (loNibble b)) rest := by
  rw [byteOps_bytes, List.append_assoc, strobes_nibbleOps h rs bl _ hlow,
    strobes_nibbleOps h rs bl _ (enableHigh_busByte h ..)]

theorem strobes_bytes {c : Config} (h : c.wellFormed = true) (rs bl : Bool) (bytes : List Byte) {before : Byte}
    (hlow : enableHigh c before = false) :
    strobes c before (bytes.flatMap fun b => opsBytes (byteOps c rs bl b)) =
      bytes.flatMap fun b => [(rs, hiNibble b), (rs, loNibble b)] := by
  induction bytes generalizing before with
  | nil => rfl
  | cons b bytes ih =>
    rw [List.flatMap_cons, strobes_byteOps h rs bl b hlow, ih (enableHigh_busByte h ..)]
    rfl

/-- Settles O20: the handshake's bytes are eight command bytes, each of two strobes. -/
theorem initStrobesSixteenNibbles : Obligations.InitStrobesSixteenNibbles := by
  intro s before h hb hlow
  refine ⟨_, exec_idle .init s hb, initOps_length s.cfg s.bl, initOps_bytes_length h s.bl, ?_⟩
  rw [State.accept_seq, expansion, initOps_bytes h]
  exact strobes_bytes h false s.bl _ hlow

end Sys2Proof.Machine
end

section
/-! One step of the block (R16 to R19, R24, R70, R71): what a request in progress leaves alone, each kind of step by
what it starts from, and what can raise BUSY, the bus port, the response and BL. -/

namespace Sys2Proof.Machine

open Sys2Proof.Says

/-! ### What a request in progress leaves alone -/

/-- The part of the state that no step of a busy block touches but reset. -/
structure Setting where
  cfg : Config
  bl : Bool
  op : BitVec 4
  arg : Byte
  reqValid : Bool
  reqWord : ReqWord
  plan : List (List HostItem)
  asides : List Aside

def State.setting (s : State) : Setting where
  cfg := s.cfg
  bl := s.bl
  op := s.op
  arg := s.arg
  reqValid := s.reqValid
  reqWord := s.reqWord
  plan := s.plan
  asides := s.asides

theorem State.sequence_setting (s : State) : s.sequence.setting = s.setting := by
  rcases s.sequence_cases with ⟨t, -, h⟩ | ⟨v, -, -, ⟨-, h⟩ | ⟨-, h⟩ | ⟨i, -, h⟩⟩ |
    ⟨-, -, ⟨-, h⟩ | ⟨v, rest, -, h⟩ | ⟨t, rest, -, h⟩⟩ <;> simp [h, State.setting]

theorem State.sequence_bl (s : State) : s.sequence.bl = s.bl := congrArg Setting.bl s.sequence_setting

/-- The host's turn is no business of the block's: BL, BUSY, the bus port and the responses stay. -/
theorem State.hostTurn_block (s : State) : s.hostTurn.bl = s.bl ∧ s.hostTurn.busy = s.busy ∧ s.hostTurn.bus = s.bus ∧
    s.hostTurn.resp = s.resp ∧ s.hostTurn.responses = s.responses := by
  rcases s.hostTurn_cases with ⟨w, rest, -, h⟩ | ⟨t, rest, -, h⟩ | ⟨-, -, h⟩ | ⟨m, ms, -, -, h⟩ <;> simp [h]

/-- Settles O15: `exec` by its equation, a step of the sequencer by what it leaves alone. -/
theorem busyBlockAcceptsNothing : Obligations.BusyBlockAcceptsNothing := by
  refine ⟨fun i s hb => by simp [exec_eq, hb], fun s t hb hr hs => ?_⟩
  rw [step_busy s hr hb] at hs
  cases hs
  have h : s.beginStep.sequence.setting = s.setting := s.beginStep.sequence_setting
  exact ⟨congrArg Setting.reqValid h, congrArg Setting.reqWord h, congrArg Setting.op h, congrArg Setting.arg h,
    congrArg Setting.bl h, congrArg Setting.plan h⟩

/-- Settles O36: of the four kinds of step only reset and acceptance write BL, and of the requests only BL does. -/
theorem onlyBlRequestAndResetWriteBl : Obligations.OnlyBlRequestAndResetWriteBl := by
  intro s t hs
  rcases step_cases s t hs with ⟨hr, rfl⟩ | ⟨-, -, rfl⟩ | ⟨-, hb, hv, rfl⟩ | ⟨-, -, -, rfl⟩
  · exact .inr (.inl ⟨hr, rfl⟩)
  · exact .inl s.beginStep.sequence_bl
  · rw [State.accept_bl, State.writeBl_bl]
    cases hi : decode s.reqWord with
    | bl v => exact .inr (.inr ⟨hb, hv, rfl⟩)
    | _ => exact .inl rfl
  · obtain ⟨hbl, -⟩ := s.beginStep.hostTurn_block
    exact .inl hbl

/-! ### Requests and reset -/

/-- Settles O22: both sides are the acceptance of the decoded request. -/
theorem stepRunsTheDecodedRequest : Obligations.StepRunsTheDecodedRequest := fun s hr hb hv => by
  rw [step_accept s hr hb hv, exec_idle (decode s.reqWord) (ticked s) hb]
  rfl

/-- Settles O23: the placed word is on the port of an idle block without reset. -/
theorem placedWordRunsNext : Obligations.PlacedWordRunsNext := fun s nbits w hw =>
  ⟨stepRunsTheDecodedRequest (s.withFetchWord nbits w) rfl rfl rfl,
    by simp [decodeTableWord, decodeNumber, hw], rfl, rfl⟩

/-- Settles O32: `State.resetWith` is that state. -/
theorem resetState : Obligations.ResetState :=
  ⟨fun _ => ⟨rfl, rfl, rfl, rfl, rfl, rfl, rfl, rfl, rfl⟩, rfl⟩

/-- Settles O33: reset writes each of these fields or leaves it; a write cut short is the one aside. -/
theorem resetInputResetsTheBlock : Obligations.ResetInputResetsTheBlock := by
  intro s hr
  refine ⟨_, step_reset s hr, rfl, rfl, rfl, rfl, rfl, rfl, rfl, rfl, rfl, rfl, ?_, rfl, rfl, rfl, rfl, rfl, rfl⟩
  cases hb : s.bus <;> simp [hb]

/-- Settles O41: only acceptance sets BUSY; the sequencer never runs on an idle block. -/
theorem busyRisesByAcceptance : Obligations.BusyRisesByAcceptance := by
  intro s t hs hidle hbusy
  rcases step_cases s t hs with ⟨-, rfl⟩ | ⟨-, hb, -⟩ | ⟨hr, -, hv, rfl⟩ | ⟨-, -, -, rfl⟩
  · simp at hbusy
  · simp [hidle] at hb
  · exact ⟨hv, hr, mkWord_opOf_argOf s.reqWord, rfl⟩
  · simp [s.beginStep.hostTurn_block, hidle] at hbusy

/-! ### The sequencer's actions, as steps -/

section

variable {s : State}

/-- A look at an outstanding write takes an answer and does what it says (R19, R70). -/
theorem State.lookAtBus_notYet {v : Byte} (h : s.peekAnswer = .notYet) : s.lookAtBus v = s.takeAnswer := by
  simp [State.lookAtBus, h]

theorem State.lookAtBus_ok {v : Byte} (h : s.peekAnswer = .ok) :
    s.lookAtBus v = s.takeAnswer.writeSucceeded v := by
  simp [State.lookAtBus, h]

theorem State.lookAtBus_fail {v : Byte} {i : Nat} (h : s.peekAnswer = .fail i) :
    s.lookAtBus v = (s.takeAnswer.transportFailure v i).hostStops := by
  simp [State.lookAtBus, h]

@[simp] theorem State.beginStep_peekAnswer : s.beginStep.peekAnswer = s.peekAnswer := rfl

theorem step_awaiting {v : Byte} (h : awaiting s v) : step s = .next (s.beginStep.lookAtBus v) := by
  obtain ⟨hr, hb, hd, hv⟩ := h
  rw [step_busy s hr hb, s.beginStep.sequence_bus v hd hv]

theorem step_delaying {t : Nat} (hr : s.rstNow = false) (hb : s.busy = true) (hd : s.delay = some t) :
    step s = .next (s.beginStep.endDelay t) := by
  rw [step_busy s hr hb, s.beginStep.sequence_delay t hd]

theorem step_write {v : Byte} {rest : List MicroOp} (h : between s) (hq : s.seq = .write v :: rest) :
    step s = .next (s.beginStep.issueWrite v) := by
  obtain ⟨hr, hb, hd, hv⟩ := h
  rw [step_busy s hr hb, s.beginStep.sequence_write v rest hd hv hq]

theorem step_delay {t : Nat} {rest : List MicroOp} (h : between s) (hq : s.seq = .delay t :: rest) :
    step s = .next (s.beginStep.startDelay t) := by
  obtain ⟨hr, hb, hd, hv⟩ := h
  rw [step_busy s hr hb, s.beginStep.sequence_wait t rest hd hv hq]

theorem step_done (h : between s) (hq : s.seq = []) : step s = .next s.beginStep.respondOk := by
  obtain ⟨hr, hb, hd, hv⟩ := h
  rw [step_busy s hr hb, s.beginStep.sequence_nil hd hv hq]

end

/-- Settles O25: an answer of either kind empties the bus port, and no answer leaves it. -/
theorem writeIsIssuedAndHeld : Obligations.WriteIsIssuedAndHeld := by
  refine ⟨fun s v rest h hq => step_write h hq, fun s v h => ⟨_, step_awaiting h, ?_⟩⟩
  obtain ⟨-, hb, -, hv⟩ := h
  rcases ha : s.peekAnswer with _ | _ | i
  · simp [State.lookAtBus_notYet, ha, hb, hv]
  · simp [State.lookAtBus_ok, ha]
  · simp [State.lookAtBus_fail (s.beginStep_peekAnswer.trans ha)]

/-- Settles O26: the look starts the settle, and the step after it ends it. -/
theorem settleFollowsEverySuccessfulWrite : Obligations.SettleFollowsEverySuccessfulWrite := by
  intro s v rest h ha
  have look : s.beginStep.lookAtBus v = ({ ticked s with answers := rest } : State).writeSucceeded v := by
    rw [State.lookAtBus_ok (s.beginStep.peekAnswer_cons _ _ ha), s.beginStep.takeAnswer_cons _ _ ha]
    rfl
  refine ⟨_, (step_awaiting h).trans (congrArg _ look), Nat.le_add_right _ _, rfl, fun hr => ?_⟩
  obtain ⟨-, hb, -, -⟩ := h
  rw [step_delaying hr hb rfl]
  simp [State.endDelay, State.writeSucceeded, State.startDelay, State.beginStep, ticked]

/-- Settles O27: one step starts the delay, with a timer of its bound and an excess, and the next ends it. -/
theorem delayLastsAtLeastItsBound : Obligations.DelayLastsAtLeastItsBound := by
  intro s t rest h hq
  refine ⟨_, step_delay h hq, Nat.le_add_right _ _, rfl, fun hr => ?_⟩
  obtain ⟨-, hb, -, -⟩ := h
  rw [step_delaying hr hb rfl]
  simp [State.endDelay, State.startDelay, State.beginStep, ticked, hq]

/-- Settles O29: a step with nothing left to do is the response. -/
theorem emptySeqAnswersOk : Obligations.EmptySeqAnswersOk := fun _ h hq => step_done h hq

/-- Settles O30, by induction on the number of looks: each takes its `notYet` off the script and does nothing else. -/
theorem unansweredWriteHoldsTheBlock : Obligations.UnansweredWriteHoldsTheBlock := by
  intro n
  induction n with
  | zero =>
    rintro s rest - - - - - rfl
    rfl
  | succ n ih =>
    intro s rest hb hd hv hr hp ha
    obtain ⟨v, hv'⟩ := Option.isSome_iff_exists.1 hv
    have look : s.beginStep.lookAtBus v = { s with answers := List.replicate n .notYet ++ rest } := by
      rw [State.lookAtBus_notYet (s.beginStep.peekAnswer_cons _ _ ha), s.beginStep.takeAnswer_cons _ _ ha]
      simp [State.beginStep, hr, hp]
    have now : awaiting s v := ⟨by simp [State.rstNow, hr], hb, hd, hv'⟩
    exact (run_succ n s _ ((step_awaiting now).trans (congrArg _ look))).trans (ih _ rest hb hd hv hr hp rfl)

/-! ### The bus port and the response -/

/-- Settles O39: with the bus port empty, the only action that fills it is the issue of a write at the head of SEQ. -/
theorem writesAreIssuedOneAtATime : Obligations.WritesAreIssuedOneAtATime := by
  intro s t v hs hbus ht
  rcases step_cases s t hs with ⟨-, rfl⟩ | ⟨-, hb, rfl⟩ | ⟨-, -, -, rfl⟩ | ⟨-, -, -, rfl⟩
  · simp at ht
  · rcases s.beginStep.sequence_cases with ⟨u, -, h⟩ | ⟨w, -, hw, -⟩ |
      ⟨hd, -, ⟨-, h⟩ | ⟨w, rest, hq, h⟩ | ⟨u, rest, -, h⟩⟩
    · simp [h, hbus] at ht
    · simp [hbus] at hw
    · simp [h, hbus] at ht
    · obtain rfl : w = v := by simpa [h] using ht
      exact ⟨hb, hd, rest, hq, by rw [h]; rfl⟩
    · simp [h, hbus] at ht
  · simp [hbus] at ht
  · simp [s.beginStep.hostTurn_block, hbus] at ht

/-- An action of the sequencer gives a response exactly when it clears BUSY. -/
theorem State.sequence_response (s : State) (hb : s.busy = true) (hp : s.resp = none) :
    (s.sequence.resp.isSome = true ↔ s.sequence.busy = false) ∧
      s.sequence.responses = s.responses ++ s.sequence.resp.toList := by
  rcases s.sequence_cases with ⟨t, -, h⟩ | ⟨v, -, -, ⟨-, h⟩ | ⟨-, h⟩ | ⟨i, -, h⟩⟩ |
    ⟨-, -, ⟨-, h⟩ | ⟨v, rest, -, h⟩ | ⟨t, rest, -, h⟩⟩ <;> simp [h, hb, hp]

/-- Settles O40: the sequencer's actions by `State.sequence_response`; acceptance and the host's turn give none. -/
theorem oneResponsePerRequest : Obligations.OneResponsePerRequest := by
  intro s t hr hs
  rcases step_cases s t hs with ⟨hr', -⟩ | ⟨-, hb, rfl⟩ | ⟨-, hb, -, rfl⟩ | ⟨-, hb, -, rfl⟩
  · simp [hr] at hr'
  · simpa [hb] using s.beginStep.sequence_response hb rfl
  · simp [hb]
  · simp [hb, s.beginStep.hostTurn_block]

end Sys2Proof.Machine
end

section
/-! Whole requests (R15, R70, R71, R152): the pseudocode as a relation between what SEQ holds, the transport's answers
and the outcome, and the machine's run to that outcome. -/

namespace Sys2Proof.Machine

open Sys2Proof.Says

/-! ### The pseudocode as a relation -/

/-- On the answers `as`, looks without an answer among them, the micro-operations `ops` end with the trace `tr` and the
response `r`, and `left` are the answers not looked at. -/
inductive Served (c : Config) : List MicroOp → List Answer → List Answer → List TraceItem → Response → Prop
  | done (as : List Answer) : Served c [] as as [] ⟨.ok, 0⟩
  | delay (t : Nat) {ops : List MicroOp} {as left : List Answer} {tr : List TraceItem} {r : Response} :
    Served c ops as left tr r → Served c (.delay t :: ops) as left (.gap t :: tr) r
  | notYet (v : Byte) {ops : List MicroOp} {as left : List Answer} {tr : List TraceItem} {r : Response} :
    Served c (.write v :: ops) as left tr r → Served c (.write v :: ops) (.notYet :: as) left tr r
  | ok (v : Byte) {ops : List MicroOp} {as left : List Answer} {tr : List TraceItem} {r : Response} :
    Served c ops as left tr r →
      Served c (.write v :: ops) (.ok :: as) left (.wrote v :: .gap c.tSettle :: tr) r
  | fail (v : Byte) (i : Nat) (ops : List MicroOp) (as : List Answer) :
    Served c (.write v :: ops) (.fail i :: as) as [.writeFailed v] ⟨.transportFail, infoPort c i⟩

/-- The pseudocode's run is such an outcome. -/
theorem served_of_runOps {c : Config} {ops : List MicroOp} {as : List Answer} {tr : List TraceItem} {r : Response}
    (h : runOps c ops (finalAnswers as) = some (tr, r)) : ∃ left, Served c ops as left tr r := by
  induction ops generalizing as tr r with
  | nil =>
    cases h
    exact ⟨as, .done as⟩
  | cons m ops ih =>
    cases m with
    | delay t =>
      obtain ⟨⟨tr', r'⟩, hrest, heq⟩ := Option.map_eq_some_iff.1 h
      cases heq
      obtain ⟨left, served⟩ := ih hrest
      exact ⟨left, .delay t served⟩
    | write v =>
      induction as with
      | nil => cases h
      | cons a as ihas =>
        cases a with
        | notYet =>
          obtain ⟨left, served⟩ := ihas h
          exact ⟨left, .notYet v served⟩
        | ok =>
          obtain ⟨⟨tr', r'⟩, hrest, heq⟩ := Option.map_eq_some_iff.1 h
          cases heq
          obtain ⟨left, served⟩ := ih hrest
          exact ⟨left, .ok v served⟩
        | fail i =>
          cases h
          exact ⟨as, .fail v i ops as⟩

/-- If the transport answers each write at once with success, the outcome is `ST_OK` with the whole trace. -/
theorem served_ok (c : Config) (ops : List MicroOp) (rest : List Answer) :
    Served c ops (List.replicate (opsBytes ops).length .ok ++ rest) rest (okTrace c ops) ⟨.ok, 0⟩ := by
  induction ops with
  | nil => exact .done rest
  | cons m ops ih =>
    cases m with
    | write v => exact .ok v ih
    | delay t => exact .delay t ih

/-! ### The machine's run of a request -/

/-- No reset comes. -/
def State.noReset (s : State) : Prop := ∀ b ∈ s.rst, b = false

theorem State.noReset.rstNow {s : State} (h : s.noReset) : s.rstNow = false := by
  unfold State.noReset at h
  unfold State.rstNow
  cases hr : s.rst with
  | nil => rfl
  | cons b rst => exact h b (by simp [hr])

theorem State.noReset.beginStep {s : State} (h : s.noReset) : s.beginStep.noReset := fun b hb =>
  h b (List.mem_of_mem_tail hb)

/-- `t` is what `s` has come to with the request in progress ended: `tr` more on the trace, the response `r`, the
answers `left` not looked at. After a failure the host sends no more of its list (R130). -/
structure Completed (s : State) (left : List Answer) (tr : List TraceItem) (r : Response) (t : State) : Prop where
  setting : t.setting = s.setting
  trace : t.trace = s.trace ++ tr
  responses : t.responses = s.responses ++ [r]
  resp : t.resp = some r
  busy : t.busy = false
  seq : t.seq = []
  bus : t.bus = none
  answers : t.answers = left
  macroRest : t.macroRest = if r.status = .ok then s.macroRest else []
  waited : s.waited + gapTotal tr ≤ t.waited

def Completes (s : State) (left : List Answer) (tr : List TraceItem) (r : Response) : Prop :=
  ∃ n t, run n s = .next t ∧ Completed s left tr r t

/-- `u` is further on in the request of `s`, with `items` more on the trace. -/
structure Advances (s : State) (items : List TraceItem) (u : State) : Prop where
  step : step s = .next u
  setting : u.setting = s.setting
  trace : u.trace = s.trace ++ items
  responses : u.responses = s.responses
  macroRest : u.macroRest = s.macroRest
  waited : s.waited + gapTotal items ≤ u.waited

theorem Completes.of_step {s t : State} {left : List Answer} {tr : List TraceItem} {r : Response}
    (hs : step s = .next t) (h : Completed s left tr r t) : Completes s left tr r :=
  ⟨1, t, run_succ 0 s t hs, h⟩

theorem Advances.completes {s u : State} {items tr : List TraceItem} {left : List Answer} {r : Response}
    (h : Advances s items u) (hu : Completes u left tr r) : Completes s left (items ++ tr) r := by
  obtain ⟨n, t, hrun, ht⟩ := hu
  exact ⟨n + 1, t, (run_succ n s u h.step).trans hrun,
    { setting := ht.setting.trans h.setting
      trace := by rw [ht.trace, h.trace, List.append_assoc]
      responses := by rw [ht.responses, h.responses]
      resp := ht.resp
      busy := ht.busy
      seq := ht.seq
      bus := ht.bus
      answers := ht.answers
      macroRest := by rw [ht.macroRest, h.macroRest]
      waited := by
        have := ht.waited
        have := h.waited
        rw [gapTotal_append]
        omega }⟩

/-- The block has the micro-operations `ops` left, the first one issued at most, and the transport will answer `as`. -/
structure Serving (s : State) (ops : List MicroOp) (as : List Answer) : Prop where
  noReset : s.noReset
  busy : s.busy = true
  delay : s.delay = none
  seq : s.seq = ops
  answers : s.answers = as
  bus : s.bus = none ∨ ∃ v, s.bus = some v ∧ ops.head? = some (.write v)

section

variable {s : State} {ops : List MicroOp} {as left : List Answer} {tr : List TraceItem} {r : Response}

theorem Serving.between (h : Serving s ops as) (hbus : s.bus = none) : between s :=
  ⟨h.noReset.rstNow, h.busy, h.delay, hbus⟩

theorem Serving.awaiting {v : Byte} (h : Serving s ops as) (hbus : s.bus = some v) : awaiting s v :=
  ⟨h.noReset.rstNow, h.busy, h.delay, hbus⟩

/-- A write that is not on the bus yet is issued, so it is enough to run from where it is outstanding. -/
theorem Serving.completes_of_issued {v : Byte} (h : Serving s (.write v :: ops) as)
    (issued : ∀ u : State, u.cfg = s.cfg → Serving u (.write v :: ops) as → u.bus = some v → Completes u left tr r) :
    Completes s left tr r := by
  rcases h.bus with hbus | ⟨w, hbus, hw⟩
  · have issue : Advances s [] (s.beginStep.issueWrite v) :=
      ⟨step_write (h.between hbus) h.seq, rfl, by simp, rfl, rfl, le_rfl⟩
    exact issue.completes (issued _ rfl
      ⟨h.noReset.beginStep, h.busy, h.delay, h.seq, h.answers, .inr ⟨v, rfl, rfl⟩⟩ rfl)
  · obtain rfl : v = w := by simpa using hw
    exact issued s rfl h hbus

/-- A running delay ends with its gap, and its micro-operation is done. -/
theorem completes_of_delayEnded {t : Nat} {m : MicroOp} (hr : s.noReset) (hb : s.busy = true) (hbus : s.bus = none)
    (hd : s.delay = some t) (ht : t ≤ s.tmr) (hq : s.seq = m :: ops) (ha : s.answers = as)
    (ended : ∀ u : State, u.cfg = s.cfg → Serving u ops as → Completes u left tr r) :
    Completes s left (.gap t :: tr) r := by
  have run_out : Advances s [.gap t] (s.beginStep.endDelay t) :=
    ⟨step_delaying hr.rstNow hb hd, rfl, rfl, rfl, rfl, by simpa [gapTotal] using ht⟩
  exact run_out.completes (ended _ rfl ⟨hr.beginStep, hb, rfl, by simp [hq], ha, .inl hbus⟩)

theorem State.takeAnswer_answers : s.takeAnswer.answers = s.answers.tail := by
  unfold State.takeAnswer
  split <;> simp [*]

theorem State.takeAnswer_setting : s.takeAnswer.setting = s.setting := by
  simp [State.setting]

/-- A look takes the first answer off the script, whatever it is. -/
theorem Serving.beginStep_takeAnswer {a : Answer} (h : Serving s ops (a :: as)) :
    Serving s.beginStep.takeAnswer ops as where
  noReset b hb := h.noReset.beginStep b (by simpa using hb)
  busy := by simpa using h.busy
  delay := by simpa using h.delay
  seq := by simpa using h.seq
  answers := by simp [State.takeAnswer_answers, h.answers]
  bus := by simpa using h.bus

/-- The machine refines the relation, from the parameters `c` and every state that serves these micro-operations. -/
theorem Served.completes {c : Config} (h : Served c ops as left tr r) (hc : s.cfg = c) (hs : Serving s ops as) :
    Completes s left tr r := by
  induction h generalizing s with
  | done as =>
    have hbus : s.bus = none := by simpa using hs.bus
    exact .of_step (step_done (hs.between hbus) hs.seq)
      ⟨rfl, by simp, rfl, rfl, rfl, hs.seq, hbus, hs.answers, rfl, by simp [gapTotal]⟩
  | delay t _ ih =>
    have hbus : s.bus = none := by simpa using hs.bus
    have start : Advances s [] (s.beginStep.startDelay t) :=
      ⟨step_delay (hs.between hbus) hs.seq, rfl, by simp, rfl, rfl, le_rfl⟩
    exact start.completes (completes_of_delayEnded hs.noReset.beginStep hs.busy hbus rfl (by simp) hs.seq hs.answers
      fun u hu => ih (hu.trans hc))
  | notYet v _ ih =>
    refine hs.completes_of_issued fun u hu hs hbus => ?_
    have peek : u.beginStep.peekAnswer = .notYet := u.beginStep.peekAnswer_cons _ _ hs.answers
    have held : Advances u [] u.beginStep.takeAnswer :=
      ⟨(step_awaiting (hs.awaiting hbus)).trans (by rw [State.lookAtBus_notYet peek]), State.takeAnswer_setting,
        by simp, by simp, by simp, by simp [gapTotal]⟩
    exact held.completes (ih (by simpa using hu.trans hc) hs.beginStep_takeAnswer)
  | ok v _ ih =>
    refine hs.completes_of_issued fun u hu hs hbus => ?_
    have peek : u.beginStep.peekAnswer = .ok := u.beginStep.peekAnswer_cons _ _ hs.answers
    have written : Advances u [.wrote v] (u.beginStep.takeAnswer.writeSucceeded v) :=
      ⟨(step_awaiting (hs.awaiting hbus)).trans (by rw [State.lookAtBus_ok peek]), State.takeAnswer_setting,
        by simp, by simp, by simp, by simp [gapTotal]⟩
    have looked := hs.beginStep_takeAnswer
    have hcfg : (u.beginStep.takeAnswer.writeSucceeded v).cfg = c := by simpa using hu.trans hc
    rw [← hcfg]
    exact written.completes (completes_of_delayEnded looked.noReset looked.busy rfl (by simp) (by simp) looked.seq
      looked.answers fun w hw => ih (hw.trans hcfg))
  | fail v i ops as =>
    refine hs.completes_of_issued fun u hu hs hbus => ?_
    have peek : u.beginStep.peekAnswer = .fail i := u.beginStep.peekAnswer_cons _ _ hs.answers
    have looked := hs.beginStep_takeAnswer
    exact .of_step (t := (u.beginStep.takeAnswer.transportFailure v i).hostStops)
      ((step_awaiting (hs.awaiting hbus)).trans (by rw [State.lookAtBus_fail peek]))
      { setting := State.takeAnswer_setting
        trace := by simp
        responses := by simp [hu, hc]
        resp := by simp [hu, hc]
        busy := rfl
        seq := rfl
        bus := rfl
        answers := looked.answers
        macroRest := rfl
        waited := by simp [gapTotal] }

end

/-- Settles O43: the pseudocode's run is an outcome of the relation, and the machine runs to it. -/
theorem machineRefinesThePseudocode : Obligations.MachineRefinesThePseudocode := by
  intro s tr r hb hd hv hr hrun
  obtain ⟨left, served⟩ := served_of_runOps hrun
  obtain ⟨n, t, ht, h⟩ := served.completes rfl ⟨hr, hb, hd, rfl, rfl, .inl hv⟩
  exact ⟨n, t, ht, h.trace, h.responses, h.busy, h.seq, h.bus, h.resp, congrArg Setting.bl h.setting,
    congrArg Setting.op h.setting, congrArg Setting.arg h.setting, h.waited⟩

/-! ### Every request -/

theorem byteStrobes_leastTime {c : Config} (h : c.wellFormed = true) (rs bl : Bool) (b : Byte) :
    opsLeastTime c (byteStrobes c rs bl b) = 2600 := by
  obtain ⟨-, -, -, settle, high, low, -⟩ := c.wellFormed_source h
  simp [byteStrobes, strobe, opsLeastTime, settle, high, low]

/-- R182. -/
theorem requestSeq_leastTime {c : Config} (h : c.wellFormed = true) (bl : Bool) (i : Instr) :
    opsLeastTime c (requestSeq c bl i) = leastTime c i := by
  obtain ⟨-, -, -, settle, high, low, -⟩ := c.wellFormed_source h
  cases i with
  | nib lit rs n => simp [requestSeq, strobe, opsLeastTime, leastTime, settle, high, low]
  | init =>
    simp only [requestSeq, initSeq, opsLeastTime_append, byteStrobes_leastTime h, opsLeastTime, leastTime]
    omega
  | bl v => simp [requestSeq, opsLeastTime, leastTime, settle]
  | reservedD => rfl
  | reservedE => rfl
  | reservedF => rfl
  | _ => exact byteStrobes_leastTime h _ bl _

theorem byteStrobes_bytes_length (c : Config) (rs bl : Bool) (b : Byte) :
    (opsBytes (byteStrobes c rs bl b)).length = 6 := rfl

/-- R151. -/
theorem requestSeq_writeCount (c : Config) (bl : Bool) (i : Instr) :
    (opsBytes (requestSeq c bl i)).length = writeCount i := by
  cases i with
  | init => simp [requestSeq, initSeq, byteStrobes_bytes_length, opsBytes, writeCount]
  | _ => rfl

/-- The gaps of a trace without failure are the settles and the delays. -/
theorem gapTotal_okTrace (c : Config) (ops : List MicroOp) : gapTotal (okTrace c ops) = opsLeastTime c ops := by
  induction ops with
  | nil => rfl
  | cons m ops ih =>
    cases m with
    | write v => exact congrArg (c.tSettle + ·) ih
    | delay t => exact congrArg (t + ·) ih

/-- `s` after the acceptance of the request on its port. -/
def State.acceptPort (s : State) : State :=
  (s.beginStep.writeBl (blAfter (decode s.reqWord) s.bl)).accept (expansion s.cfg s.bl (decode s.reqWord))

/-- A block that is ready takes the request on its port and then serves what the spec says of it. -/
theorem step_serving_of_ready {s : State} (h : ready s) : step s = .next s.acceptPort ∧
    Serving s.acceptPort (requestSeq s.cfg s.bl (decode s.reqWord)) s.answers := by
  obtain ⟨hwf, hidle, hb, hv, hr⟩ := h
  obtain ⟨-, hbus, hdelay⟩ := hidle hb
  have hr : s.noReset := hr
  exact ⟨step_accept s hr.rstNow hb hv,
    ⟨hr.beginStep, rfl, hdelay, expansion_eq_requestSeq hwf _ _, rfl, .inl hbus⟩⟩

/-- Settles O44: acceptance, then the run on answers that are all success. -/
theorem everyRequestRunsToOk : Obligations.EveryRequestRunsToOk := by
  intro s rest hs ha
  obtain ⟨accepts, serving⟩ := step_serving_of_ready hs
  obtain ⟨hwf, -⟩ := hs
  rw [ha, ← requestSeq_writeCount s.cfg s.bl] at serving
  obtain ⟨n, t, ht, h⟩ := (served_ok _ _ rest).completes rfl serving
  have hw : s.waited + gapTotal (okTrace s.cfg (requestSeq s.cfg s.bl (decode s.reqWord))) ≤ t.waited := h.waited
  rw [gapTotal_okTrace, requestSeq_leastTime hwf] at hw
  have hop : t.op = opOf s.reqWord := congrArg Setting.op h.setting
  have harg : t.arg = argOf s.reqWord := congrArg Setting.arg h.setting
  have latch : t.op ++ t.arg = s.reqWord := by rw [hop, harg]; exact mkWord_opOf_argOf s.reqWord
  exact ⟨n + 1, t, (run_succ n s _ accepts).trans ht, h.trace, h.responses, h.resp, h.bus, h.busy,
    (congrArg Setting.bl h.setting).trans (blAfter_eq_backlightAfter _ _),
    latch, h.answers, h.macroRest, congrArg Setting.plan h.setting, hw⟩

end Sys2Proof.Machine
end

section
/-! What is recorded (R40, R70, R71, R152, R160; program P3) and what a byte request and the raw backlight write show on
the bus (R33, R34, R75, R90, R122). -/

namespace Sys2Proof.Machine

/-! ### What a step records -/

/-- One step from `s` may add these trace items and these asides: nothing, or one thing, with what caused it. -/
inductive Records (s : State) : List TraceItem → List Aside → Prop
  /-- Nothing happened that an observer notes. -/
  | nothing : Records s [] []
  /-- The transport answered the outstanding write with success (R70). -/
  | wrote {v : Byte} (hr : s.rstNow = false) (hb : s.busy = true) (hv : s.bus = some v) (ha : s.peekAnswer = .ok) :
      Records s [.wrote v] []
  /-- The transport answered the outstanding write with failure (R152). -/
  | writeFailed {v : Byte} {i : Nat} (hr : s.rstNow = false) (hb : s.busy = true) (hv : s.bus = some v)
      (ha : s.peekAnswer = .fail i) : Records s [.writeFailed v] []
  /-- The delay in progress ran out (R71). -/
  | gap {u : Nat} (hr : s.rstNow = false) (hb : s.busy = true) (hd : s.delay = some u) : Records s [.gap u] []
  /-- Reset cut the outstanding write (log entry 6). -/
  | cutWrite {v : Byte} (hr : s.rstNow = true) (hv : s.bus = some v) : Records s [] [.cutWrite s.trace.length v]
  /-- The host took its turn to wait (log entry 8). -/
  | hostWait {u : Nat} {rest : List HostItem} (hr : s.rstNow = false) (hb : s.busy = false)
      (hm : s.macroRest = .wait u :: rest) : Records s [] [.hostWait s.trace.length u]

/-- The record grows from `s` to `t` at its end, by what one step may add. -/
def RecordGrows (s t : State) : Prop :=
  ∃ items more, t.trace = s.trace ++ items ∧ t.asides = s.asides ++ more ∧ Records s items more

theorem RecordGrows.of_same {s t : State} (htrace : t.trace = s.trace) (hasides : t.asides = s.asides) :
    RecordGrows s t := ⟨[], [], by simpa, by simpa, .nothing⟩

theorem RecordGrows.of_item {s t : State} {x : TraceItem} (hx : Records s [x] []) (htrace : t.trace = s.trace ++ [x])
    (hasides : t.asides = s.asides) : RecordGrows s t := ⟨[x], [], htrace, by simpa, hx⟩

theorem RecordGrows.of_aside {s t : State} {a : Aside} (ha : Records s [] [a]) (htrace : t.trace = s.trace)
    (hasides : t.asides = s.asides ++ [a]) : RecordGrows s t := ⟨[], [a], by simpa, hasides, ha⟩

theorem recordGrows_applyReset {s : State} (hr : s.rstNow = true) : RecordGrows s s.beginStep.applyReset := by
  cases hv : s.bus with
  | none => exact .of_same rfl (by simp [hv])
  | some v => exact .of_aside (.cutWrite hr hv) rfl (by simp [hv])

theorem recordGrows_sequence {s : State} (hr : s.rstNow = false) (hb : s.busy = true) :
    RecordGrows s s.beginStep.sequence := by
  have hasides : s.beginStep.sequence.asides = s.asides := congrArg Setting.asides s.beginStep.sequence_setting
  rcases s.beginStep.sequence_cases with ⟨u, hd, h⟩ | ⟨v, -, hv, ⟨-, h⟩ | ⟨ha, h⟩ | ⟨i, ha, h⟩⟩ |
    ⟨-, -, ⟨-, h⟩ | ⟨v, rest, -, h⟩ | ⟨u, rest, -, h⟩⟩
  · exact .of_item (.gap hr hb hd) (by simp [h]) hasides
  · exact .of_same (by simp [h]) hasides
  · exact .of_item (.wrote hr hb hv ha) (by simp [h]) hasides
  · exact .of_item (.writeFailed hr hb hv ha) (by simp [h]) hasides
  · exact .of_same (by simp [h]) hasides
  · exact .of_same (by simp [h]) hasides
  · exact .of_same (by simp [h]) hasides

theorem recordGrows_hostTurn {s : State} (hr : s.rstNow = false) (hb : s.busy = false) :
    RecordGrows s s.beginStep.hostTurn := by
  rcases s.beginStep.hostTurn_cases with ⟨w, rest, -, h⟩ | ⟨u, rest, hm, h⟩ | ⟨-, -, h⟩ | ⟨m, ms, -, -, h⟩
  · exact .of_same (by simp [h]) (by simp [h])
  · exact .of_aside (.hostWait hr hb hm) (by simp [h]) (by simp [h])
  · exact .of_same (by simp [h]) (by simp [h])
  · exact .of_same (by simp [h]) (by simp [h])

theorem step_recordGrows {s t : State} (h : step s = .next t) : RecordGrows s t := by
  rcases step_cases s t h with ⟨hr, rfl⟩ | ⟨hr, hb, rfl⟩ | ⟨-, -, -, rfl⟩ | ⟨hr, hb, -, rfl⟩
  · exact recordGrows_applyReset hr
  · exact recordGrows_sequence hr hb
  · exact .of_same rfl rfl
  · exact recordGrows_hostTurn hr hb

/-- Settles O38: each clause is read off the one thing the step recorded. -/
theorem traceGrowsByAnsweredWrites : Obligations.TraceGrowsByAnsweredWrites := by
  intro s t hs
  obtain ⟨items, more, htrace, hasides, h⟩ := step_recordGrows hs
  refine ⟨items, more, htrace, hasides, ?_⟩
  cases h with
  | nothing => simp
  | wrote hr hb hv ha => simp [hr, hb, hv, ha]
  | writeFailed hr hb hv ha => simp [hr, hb, hv, ha]
  | gap hr hb hd => simp [hr, hb, hd]
  | cutWrite hr hv => simp [hr, hv]
  | hostWait hr hb hm => simp [hr, hb, hm]

/-! ### The timeline -/

/-- A trace item is the last thing on the timeline, since every aside stands within the trace. -/
theorem State.timeline_traceItem {s t : State} {x : TraceItem} (hwithin : ∀ a ∈ s.asides, a.position ≤ s.trace.length)
    (htrace : t.trace = s.trace ++ [x]) (hasides : t.asides = s.asides) : t.timeline = s.timeline ++ [.block x] := by
  rw [State.timeline, htrace, hasides]
  exact timelineFrom_trace s.asides x s.trace 0 (by simpa using hwithin)

/-- An aside noted where the trace now ends is the last thing on the timeline. -/
theorem State.timeline_aside {s t : State} {a : Aside} (hp : a.position = s.trace.length)
    (htrace : t.trace = s.trace) (hasides : t.asides = s.asides ++ [a]) :
    t.timeline = s.timeline ++ [a.toTimeline] := by
  rw [State.timeline, htrace, hasides]
  exact timelineFrom_aside s.asides a s.trace 0 (by simpa using hp)

/-- What one step records is nothing, one trace item, or one aside that stands at the end of the trace. -/
theorem Records.cases_by_kind {s : State} {items : List TraceItem} {more : List Aside} (h : Records s items more) :
    (items = [] ∧ more = []) ∨ (∃ x, items = [x] ∧ more = []) ∨
      ∃ a, items = [] ∧ more = [a] ∧ a.position = s.trace.length := by
  cases h with
  | nothing => exact .inl ⟨rfl, rfl⟩
  | wrote => exact .inr (.inl ⟨_, rfl, rfl⟩)
  | writeFailed => exact .inr (.inl ⟨_, rfl, rfl⟩)
  | gap => exact .inr (.inl ⟨_, rfl, rfl⟩)
  | cutWrite => exact .inr (.inr ⟨_, rfl, rfl, rfl⟩)
  | hostWait => exact .inr (.inr ⟨_, rfl, rfl, rfl⟩)

theorem Aside.toTimeline_ne_block (a : Aside) (x : TraceItem) : a.toTimeline ≠ .block x := by
  cases a <;> simp [Aside.toTimeline]

/-- Settles O57: what the step recorded comes last on the timeline, and only a trace item is the block's. -/
theorem timelineGrowsAtItsEnd : Obligations.TimelineGrowsAtItsEnd := by
  intro s t hinv hs
  obtain ⟨-, -, -, past⟩ := s.inv_iff.1 hinv
  obtain ⟨items, more, htrace, hasides, h⟩ := step_recordGrows hs
  obtain ⟨rfl, rfl⟩ | ⟨x, rfl, rfl⟩ | ⟨a, rfl, rfl, hp⟩ := h.cases_by_kind
  · exact ⟨[], by simp [State.timeline, htrace, hasides], by simp, by simp⟩
  · refine ⟨[.block x], State.timeline_traceItem past.within htrace (by simpa using hasides), by simp, ?_⟩
    simpa using htrace
  · refine ⟨[a.toTimeline], State.timeline_aside hp (by simpa using htrace) hasides, by simp, ?_⟩
    simp [(a.toTimeline_ne_block _).symm]

/-! ### The strobes of a byte request -/

/-- A request that carries a byte sends that byte, with the register select of DAT or of a command (R91, R92). -/
theorem expansion_of_carriedByte {c : Config} {i : Instr} {b : Byte} (h : commandByte c i = some b ∨ i = .dat b)
    (bl : Bool) : expansion c bl i = byteOps c (i == .dat b) bl b := by
  obtain h | rfl := h
  · cases i with
    | nib | dat | init | bl | reservedD | reservedE | reservedF => simp [commandByte] at h
    | _ =>
      obtain rfl := Option.some.inj h
      rfl
  · simp [expansion]

/-- Settles O47: the request is one byte, and a byte makes two strobes. -/
theorem byteIsTwoStrobes : Obligations.ByteIsTwoStrobes := by
  intro i s b before hwf hb hlow hi
  refine ⟨_, exec_idle i s hb, ?_⟩
  rw [State.accept_seq, expansion_of_carriedByte hi]
  simpa [strobes, hiNibble, loNibble] using strobes_byteOps hwf (i == .dat b) s.bl b hlow []

/-! ### The raw backlight write -/

theorem opsBytes_backlightOps (c : Config) (v : Bool) : opsBytes (backlightOps c v) = [backlightByte c v] := rfl

/-- The backlight mask is not the Enable mask (R3), so the raw write leaves Enable low (R122). -/
theorem enableHigh_backlightByte {c : Config} (h : c.wellFormed = true) (v : Bool) :
    enableHigh c (backlightByte c v) = false := by
  obtain ⟨backlight, -, enable, -, apart, -⟩ := c.wellFormed_masks h
  obtain ⟨-, disjoint⟩ := controlMasks_apart _ (isControlMask_mem _ backlight) _ (isControlMask_mem _ enable) apart
  rw [enableHigh, backlightByte, sel_and _ _ _ _ disjoint, sel_zero]
  rfl

theorem backlightByte_only_backlight (c : Config) (v : Bool) : backlightByte c v &&& ~~~c.blMask = 0 := by
  rw [backlightByte, sel_and v _ _ 0#8 (by simp), sel_zero]
  rfl

/-- Enable cannot fall at a byte that finds it low. -/
theorem strobes_of_low {c : Config} {before : Byte} (hlow : enableHigh c before = false) (v : Byte) :
    strobes c before [v] = [] := by
  simp [strobes, hlow]

/-- Settles O48: the one byte of the raw write has Enable low, and nothing but the backlight bit. -/
theorem blMakesNoStrobe : Obligations.BlMakesNoStrobe := by
  intro s v before hwf hb hlow
  refine ⟨_, exec_idle (.bl v) s hb, ?_⟩
  rw [State.accept_seq, expansion, opsBytes_backlightOps]
  refine ⟨strobes_of_low hlow _, enableHigh_backlightByte hwf v, fun x hx => ?_⟩
  rw [List.mem_singleton.1 hx]
  exact backlightByte_only_backlight s.cfg v

end Sys2Proof.Machine
end

section
/-! The request word (R50 to R54): decoding and encoding undo each other up to the reserved bits, the operands stand at
the places of R51, and a word selects one row of the table. -/

namespace Sys2Proof

/-! ### One field of `arg` -/

/-- The form in which the library speaks of a single bit. -/
theorem argBit_eq_twoPow (k : Nat) (v : Bool) : argBit k v = if v then BitVec.twoPow 8 k else 0#8 := rfl

theorem getElem_argBit (k : Nat) (v : Bool) {j : Nat} (hj : j < 8) : (argBit k v)[j] = (v && decide (j = k)) := by
  cases v <;> simp [argBit_eq_twoPow]

/-- A flag at or above bit `n` is no part of the operand in the lowest `n` bits. -/
theorem extractLsb'_argBit {k n : Nat} (h : n ≤ k) (v : Bool) : (argBit k v).extractLsb' 0 n = 0#n := by
  ext j hj
  have hjk : k ≠ j := by omega
  cases v <;> simp [argBit_eq_twoPow, BitVec.getLsbD_twoPow, hjk]

/-- A flag read from `arg` and put back is `arg` under the mask of its bit. -/
theorem argBit_getLsbD (arg : Byte) (k : Nat) : argBit k (arg.getLsbD k) = arg &&& 1#8 <<< k :=
  (BitVec.and_twoPow arg k).symm

/-- An operand in the lowest `n` bits, read from `arg` and put back, is `arg` under the mask of those bits. -/
theorem setWidth_extractLsb' (arg : Byte) (n : Nat) :
    (arg.extractLsb' 0 n).setWidth 8 = arg &&& (BitVec.allOnes n).setWidth 8 := by
  ext j hj
  simp [hj, Bool.and_comm]

theorem extractLsb'_setWidth {n : Nat} (hn : n ≤ 8) (x : BitVec n) : (x.setWidth 8).extractLsb' 0 n = x := by
  rw [BitVec.extractLsb'_setWidth_of_le (by omega), BitVec.extractLsb'_eq_self]

/-! ### A row of R51, both ways -/

/-- Each row reads back the operands it wrote: no field of `arg` overlaps another. -/
theorem decodeFields_code_argByte (i : Instr) : decodeFields i.code i.argByte = i := by
  cases i <;>
    simp [decodeFields, Instr.code, Instr.argByte, BitVec.extractLsb'_or, getElem_argBit, extractLsb'_argBit,
      extractLsb'_setWidth]

theorem code_decodeFields (op : BitVec 4) (arg : Byte) : (decodeFields op arg).code = op := by
  obtain ⟨n, hn⟩ := op
  interval_cases n <;> rfl

/-- What a request keeps of `arg` is what its row does not reserve (R53). -/
theorem argByte_decodeFields (op : BitVec 4) (arg : Byte) : (decodeFields op arg).argByte = arg &&& argMask op := by
  have whole : arg &&& 0xFF#8 = arg := BitVec.and_allOnes
  unfold decodeFields
  split <;>
    simp [Instr.argByte, argMask, argBit_getLsbD, setWidth_extractLsb', ← BitVec.and_or_distrib_left,
      -BitVec.getLsbD_eq_getElem, *]

/-- Settles O1: the decoder reads the two halves of the word, and the row of the request reads its operands back. -/
theorem decodeOfEncode : Obligations.DecodeOfEncode := fun i _ => by
  rw [decode, encode, opOf_mkWord, argOf_mkWord, decodeFields_code_argByte]

/-- A request is its operation code and the bits of `arg` that its row names. -/
theorem decodeFields_eq_iff (op op' : BitVec 4) (arg arg' : Byte) :
    decodeFields op arg = decodeFields op' arg' ↔ op = op' ∧ arg &&& argMask op = arg' &&& argMask op := by
  constructor
  · intro h
    have hop : op = op' := by simpa only [code_decodeFields] using congrArg Instr.code h
    subst hop
    exact ⟨rfl, by simpa only [argByte_decodeFields] using congrArg Instr.argByte h⟩
  · rintro ⟨rfl, harg⟩
    rw [← decodeFields_code_argByte (decodeFields op arg), ← decodeFields_code_argByte (decodeFields op arg')]
    simp only [code_decodeFields, argByte_decodeFields, harg]

theorem xor_and_eq_zero_iff {n : Nat} (a b m : BitVec n) : (a ^^^ b) &&& m = 0 ↔ a &&& m = b &&& m := by
  have hdistrib : (a ^^^ b) &&& m = (a &&& m) ^^^ (b &&& m) := by
    ext k hk
    simp [Bool.and_xor_distrib_right]
  rw [hdistrib]
  exact BitVec.xor_eq_zero_iff

/-- Settles O2: equality in the bits the row names, written with the exclusive or. -/
theorem sameRequestIffOnlyReservedBitsDiffer : Obligations.SameRequestIffOnlyReservedBitsDiffer := fun w w' => by
  rw [xor_and_eq_zero_iff]
  exact decodeFields_eq_iff _ _ _ _

/-! ### The word as a number -/

theorem toNat_opOf (w : ReqWord) : (opOf w).toNat = w.toNat / 256 := by
  have := w.isLt
  simp [opOf, Nat.shiftRight_eq_div_pow]
  omega

theorem toNat_argOf (w : ReqWord) : (argOf w).toNat = w.toNat % 256 := by simp [argOf]

theorem toNat_getLsbD_argOf (w : ReqWord) {k : Nat} (hk : k < 8) :
    ((argOf w).getLsbD k).toNat = w.toNat / 2 ^ k % 2 := by
  rw [argOf, BitVec.getLsbD_extractLsb', decide_eq_true hk, Bool.true_and, Nat.zero_add,
    BitVec.getLsbD, Nat.toNat_testBit]

/-- Settles O4: in each of the sixteen rows the flags and fields are digits of the word's number, and the
quotient by 256 is the row. -/
theorem operandsAreTheFieldsOfArg : Obligations.OperandsAreTheFieldsOfArg := by
  intro w
  have hop := toNat_opOf w
  have harg := toNat_argOf w
  unfold decode
  generalize opOf w = op at hop
  obtain ⟨n, hn⟩ := op
  interval_cases n
  all_goals
    simp [decodeFields, toNat_getLsbD_argOf, -BitVec.getLsbD_eq_getElem] at hop ⊢
    omega

/-! ### The row of a request -/

/-- The layout laws of the sixteen requests, as one. -/
theorem wordLayout : ∀ i : Instr, Laws.WordLayout.Statement i
  | .nib bl rs n => Laws.WordLayout.nib bl rs n
  | .cmd b => Laws.WordLayout.cmd b
  | .dat b => Laws.WordLayout.dat b
  | .clr => Laws.WordLayout.clr
  | .home => Laws.WordLayout.home
  | .entry id sh => Laws.WordLayout.entry id sh
  | .disp d c b => Laws.WordLayout.disp d c b
  | .shift sc rl => Laws.WordLayout.shift sc rl
  | .func dl n f => Laws.WordLayout.func dl n f
  | .cgaddr a => Laws.WordLayout.cgaddr a
  | .ddaddr a => Laws.WordLayout.ddaddr a
  | .init => Laws.WordLayout.init
  | .bl v => Laws.WordLayout.bl v
  | .reservedD => Laws.WordLayout.reservedD
  | .reservedE => Laws.WordLayout.reservedE
  | .reservedF => Laws.WordLayout.reservedF

theorem opTable_wmask : ∀ r ∈ opTable, r.wmask = 0xF00 := by decide

theorem opTable_code_surjective : ∀ op : BitVec 4, ∃ r ∈ opTable, opOf r.wmatch = op := by decide

theorem opTable_code_injective : ∀ r ∈ opTable, ∀ r' ∈ opTable, opOf r.wmatch = opOf r'.wmatch → r = r' := by
  decide

/-- A word selects the rows of its operation code. -/
theorem masked_eq_wmatch_iff {r : OpRow} (hr : r ∈ opTable) (w : ReqWord) :
    w &&& r.wmask = r.wmatch ↔ opOf w = opOf r.wmatch := by
  have h := Laws.WordLayout.selects_iff_code (opOf w) r hr (argOf w)
  rwa [mkWord_opOf_argOf, OpRow.selects, Bool.eq_iff_iff, beq_iff_eq, beq_iff_eq] at h

/-- Each request has a row, under its operation code and its mnemonic. -/
theorem exists_row (i : Instr) : ∃ r ∈ opTable, opOf r.wmatch = i.code ∧ r.mnemonic = i.mnemonic := by
  obtain ⟨r, hr, hcode⟩ := opTable_code_surjective i.code
  obtain ⟨-, -, -, -, hmnemonic⟩ := wordLayout i
  refine ⟨r, hr, hcode, hmnemonic r hr ?_⟩
  rw [encode, Laws.WordLayout.selects_iff_code _ r hr, hcode, beq_self_eq_true]

/-- Settles O3: the row is that of the decoded request, and no other row has its operation code. -/
theorem everyWordSelectsOneRow : Obligations.EveryWordSelectsOneRow := fun w => by
  obtain ⟨r, hr, hcode, hmnemonic⟩ := exists_row (decode w)
  have hop : opOf w = opOf r.wmatch := by rw [hcode, decode, code_decodeFields]
  refine ⟨r, hr, opTable_wmask r hr, (masked_eq_wmatch_iff hr w).2 hop, hmnemonic, fun r' hr' hw => ?_⟩
  exact opTable_code_injective r' hr' r hr (((masked_eq_wmatch_iff hr' w).1 hw).symm.trans hop)

/-- Settles O5, by running the decoder on each word. -/
theorem specWordsDecode : Obligations.SpecWordsDecode := by
  unfold Obligations.SpecWordsDecode
  decide

end Sys2Proof
end

section
/-! The written form of a request (R59): its mnemonic names the row, its operands are assembled into the argument. -/

namespace Sys2Proof.Machine

open Sys2Proof.Says

/-- The three rows without a written form are those of the reserved codes. -/
theorem codeOfMnemonic_row : ∀ r ∈ opTable, codeOfMnemonic r.mnemonic.toList =
    if 13 ≤ (opOf r.wmatch).toNat then none else some (opOf r.wmatch) := by decide

theorem mem_reservedCodes_iff (i : Instr) : i ∈ reservedCodes ↔ 13 ≤ i.code.toNat := by
  cases i <;> simp [reservedCodes, Instr.code]

@[simp] theorem writtenOf_op (i : Instr) : (writtenOf i).op = i.code := by cases i <;> rfl

/-- The reader finds the operation code under the mnemonic, for the thirteen rows that have a written form. -/
theorem codeOfMnemonic_mnemonic (i : Instr) :
    codeOfMnemonic i.mnemonic.toList = if i ∈ reservedCodes then none else some i.code := by
  obtain ⟨r, hr, hcode, hmnemonic⟩ := exists_row i
  rw [← hmnemonic, ← hcode, codeOfMnemonic_row r hr, hcode]
  simp only [mem_reservedCodes_iff]

/-- One operand in the lowest bits is the argument. -/
theorem argOfOperands_lowest {v width : Nat} (hv : v < 2 ^ width) (name : String) :
    argOfOperands [⟨name, 0, width⟩] [(name, v)] = some v := by
  simp [argOfOperands, hv]

/-- Row by row: the operands, assembled, are the argument that the encoder writes. -/
theorem argOfOperands_writtenOf (i : Instr) :
    argOfOperands (argFields i.code) (writtenOf i).operands = some i.argByte.toNat := by
  cases i with
  | nib bl rs n => revert bl rs n; decide
  | cmd b => exact argOfOperands_lowest b.isLt "b"
  | dat b => exact argOfOperands_lowest b.isLt "b"
  | entry id sh => revert id sh; decide
  | disp d c b => revert d c b; decide
  | shift sc rl => revert sc rl; decide
  | func dl n f => revert dl n f; decide
  | cgaddr a =>
    rw [Instr.argByte, BitVec.toNat_setWidth_of_le (by omega)]
    exact argOfOperands_lowest a.isLt "a"
  | ddaddr a =>
    rw [Instr.argByte, BitVec.toNat_setWidth_of_le (by omega)]
    exact argOfOperands_lowest a.isLt "a"
  | bl v => revert v; decide
  | clr | home | init | reservedD | reservedE | reservedF => rfl

/-- Settles O6: the operands of the written form are the argument of the encoded word. -/
theorem writtenFormIsTheEncodedWord : Obligations.WrittenFormIsTheEncodedWord := fun i => by
  rw [writtenOf_op]
  refine ⟨?_, codeOfMnemonic_mnemonic i⟩
  rw [assemble, writtenOf_op, argOfOperands_writtenOf, Option.map_some, BitVec.ofNat_toNat, BitVec.setWidth_eq, encode]

end Sys2Proof.Machine
end

section
/-! Single steps: a reserved operation code and its answer (R54), no stop in any state (R162), the host's turn (R130,
R160). -/

namespace Sys2Proof.Machine

open Sys2Proof.Says

/-- Settles O14: the reserved codes leave SEQ empty, and an empty SEQ is answered. -/
theorem reservedCodesDoNothing : Obligations.ReservedCodesDoNothing := by
  intro s i hb hd hbus hr hi
  refine ⟨?_, emptySeqAnswersOk (accepted s []) ⟨hr, rfl, hd, hbus⟩ rfl⟩
  rw [exec_idle i s hb]
  simp only [List.mem_cons, List.not_mem_nil, or_false] at hi
  rcases hi with rfl | rfl | rfl <;> rfl

/-- Settles O24: each of the four kinds of step answers a next state. -/
theorem everyStepGoesOn : Obligations.EveryStepGoesOn := fun s => by
  cases hr : s.rstNow
  · cases hb : s.busy
    · cases hv : s.reqValid
      · exact ⟨_, step_host s hr hb hv⟩
      · exact ⟨_, step_accept s hr hb hv⟩
    · exact ⟨_, step_busy s hr hb⟩
  · exact ⟨_, step_reset s hr⟩

/-! ### The host's turn -/

section

variable {s : State}

theorem State.hostTurn_request {w : ReqWord} {rest : List HostItem} (h : s.macroRest = .request w :: rest) :
    s.hostTurn = ({ s with macroRest := rest } : State).present w := by
  simp [State.hostTurn, h]

theorem State.hostTurn_wait {t : Nat} {rest : List HostItem} (h : s.macroRest = .wait t :: rest) :
    s.hostTurn = ({ s with macroRest := rest } : State).hostWait t := by
  simp [State.hostTurn, h]

theorem State.hostTurn_nextMacro {m : List HostItem} {ms : List (List HostItem)} (h : s.macroRest = [])
    (hp : s.plan = m :: ms) : s.hostTurn = { s with macroRest := m, plan := ms } := by
  simp [State.hostTurn, h, hp]

theorem State.hostTurn_done (h : s.macroRest = []) (hp : s.plan = []) : s.hostTurn = s := by
  simp [State.hostTurn, h, hp]

end

/-- Settles O31: one clause per branch of the host's turn; the free value is how much longer the wait lasts. -/
theorem hostTakesItsTurn : Obligations.HostTakesItsTurn := by
  intro s hr hb hv
  rw [step_host s hr hb hv]
  refine ⟨fun w rest h => ?_, fun t rest h => ?_, fun m ms h hp => ?_, fun h hp => ?_⟩
  · rw [State.hostTurn_request (s := s.beginStep) h]; rfl
  · refine ⟨Config.extraDelay s.draws, ?_⟩
    rw [State.hostTurn_wait (s := s.beginStep) h, Nat.add_assoc]; rfl
  · rw [State.hostTurn_nextMacro (s := s.beginStep) h hp]; rfl
  · rw [State.hostTurn_done (s := s.beginStep) h hp]; rfl

end Sys2Proof.Machine
end

section
/-! The two tables of the nibble transmitter: bus writes and least time (R151, R182), and the register select of every bus
byte (R73, R90 to R92, R121, R122). -/

namespace Sys2Proof.Machine

open Sys2Proof.Says

/-! ### Writes and least time -/

/-- Settles O16: SEQ is the spec's list for the request, whose writes and times the two tables give. -/
theorem writesAndLeastTimeOfEachRequest : Obligations.WritesAndLeastTimeOfEachRequest := fun i s h hb =>
  ⟨_, exec_eq_accepted i s h hb, rfl, requestSeq_writeCount s.cfg s.bl i, requestSeq_leastTime h s.bl i⟩

/-! ### Register select -/

/-- The register select a request sends with: DAT's is 1, NIB's is its operand, every other request's is 0 (R56). -/
def registerSelectOf : Instr → Bool
  | .nib _ rs _ => rs
  | .dat _ => true
  | _ => false

/-- The raw backlight write is the bus byte of an all-zero nibble with register select and Enable low (R55, R122). -/
theorem backlightByte_eq_busByte (c : Config) (v : Bool) : backlightByte c v = busByte c false v false 0 := by
  simp [backlightByte, busByte, sel]

/-- Every byte a request writes is a bus byte of R55 with the request's register select. -/
theorem mem_expansion_bytes {c : Config} (h : c.wellFormed = true) {bl : Bool} {i : Instr} {v : Byte}
    (hv : v ∈ opsBytes (expansion c bl i)) : ∃ lit en n, v = busByte c (registerSelectOf i) lit en n := by
  cases i with
  | nib lit rs n =>
    obtain ⟨en, rfl⟩ := mem_nibbleOps_bytes h hv
    exact ⟨lit, en, n, rfl⟩
  | init =>
    obtain ⟨en, n, rfl⟩ := mem_initOps_bytes h hv
    exact ⟨bl, en, n, rfl⟩
  | bl x =>
    rw [expansion, opsBytes_backlightOps, List.mem_singleton] at hv
    exact ⟨x, false, 0, hv.trans (backlightByte_eq_busByte c x)⟩
  | reservedD | reservedE | reservedF => simp [expansion, opsBytes] at hv
  | _ =>
    obtain ⟨en, n, rfl⟩ := mem_byteOps_bytes h hv
    exact ⟨bl, en, n, rfl⟩

/-- Settles O19: the register select of a bus byte can be read back, and every byte carries its request's. -/
theorem registerSelectOfEveryBusByte : Obligations.RegisterSelectOfEveryBusByte := by
  intro i s h hb
  refine ⟨_, exec_idle i s hb, fun v hv => ?_⟩
  rw [State.accept_seq] at hv
  obtain ⟨lit, en, n, rfl⟩ := mem_expansion_bytes h hv
  rw [← bne_iff_ne]
  exact Bool.eq_iff_iff.1 (registerSelect_busByte h (registerSelectOf i) lit en n)

end Sys2Proof.Machine
end

section
/-! Byte transfer: the nibble split of the bus bytes of CMD and DAT (R93). -/

namespace Sys2Proof.Machine

/-- A nibble's three bus bytes carry it in their high half, whatever the register select, backlight and Enable. -/
theorem nibbleOps_bytes_high {c : Config} (h : c.wellFormed = true) (rs bl : Bool) (n : Nibble) :
    (opsBytes (nibbleOps c rs bl n)).map (· &&& 0xF0) = List.replicate 3 (n.setWidth 8 <<< 4) := by
  have high (en : Bool) : busByte c rs bl en n &&& 0xF0#8 = n.setWidth 8 <<< 4 :=
    have ⟨_, _, _, nibble⟩ := busByte_parts c h rs bl en n
    nibble
  simp [nibbleOps_bytes_wellFormed c h, high, List.replicate]

/-- A byte's six bus bytes carry its high nibble three times, then its low one (R90, R93). -/
theorem byteOps_bytes_high {c : Config} (h : c.wellFormed = true) (rs bl : Bool) (b : Byte) :
    (opsBytes (byteOps c rs bl b)).map (· &&& 0xF0) =
      List.replicate 3 (b &&& 0xF0) ++ List.replicate 3 ((b <<< 4) &&& 0xF0) := by
  rw [byteOps_bytes, List.map_append, nibbleOps_bytes_high h, nibbleOps_bytes_high h, hiNibble_placed, loNibble_placed]

/-- Settles O17: CMD and DAT leave SEQ the two strobes of their byte. -/
theorem nibbleSplitOfEveryByte : Obligations.NibbleSplitOfEveryByte := by
  intro s b i h hb hi
  refine ⟨_, exec_idle i s hb, ?_⟩
  rw [State.accept_seq]
  rcases hi with rfl | rfl
  · exact byteOps_bytes_high h false s.bl b
  · exact byteOps_bytes_high h true s.bl b

end Sys2Proof.Machine
end

section
/-! A bus write that fails in the middle of a request (R152, R154, R122, R130). -/

namespace Sys2Proof.Machine

open Sys2Proof.Says

/-- Information that fits the wires is carried as it is (R18). -/
theorem infoPort_of_lt {c : Config} {i : Nat} (hi : i < 2 ^ c.infoW) : infoPort c i = i := Nat.mod_eq_of_lt hi

/-- If `k` writes succeed at once and there is a next one and it fails, that is the outcome. -/
theorem served_fail (c : Config) {ops : List MicroOp} {k : Nat} (hk : k < (opsBytes ops).length) (i : Nat)
    (rest : List Answer) :
    Served c ops (List.replicate k .ok ++ .fail i :: rest) rest (failTrace c ops k)
      ⟨.transportFail, infoPort c i⟩ := by
  induction ops generalizing k with
  | nil => cases hk
  | cons m ops ih =>
    cases m with
    | delay t => exact .delay t (ih hk)
    | write v =>
      cases k with
      | zero => exact .fail v i ops rest
      | succ k => exact .ok v (ih (Nat.lt_of_succ_lt_succ hk))

/-- A block that is ready accepts the request on its port and runs to any outcome of the request on its answers. -/
theorem completes_of_ready {s : State} {left : List Answer} {tr : List TraceItem} {r : Response} (h : ready s)
    (served : Served s.cfg (requestSeq s.cfg s.bl (decode s.reqWord)) s.answers left tr r) :
    ∃ n t, run n s = .next t ∧ Completed s.acceptPort left tr r t := by
  obtain ⟨accepts, serving⟩ := step_serving_of_ready h
  obtain ⟨n, t, hrun, ht⟩ := served.completes (s := s.acceptPort) rfl serving
  exact ⟨n + 1, t, (run_succ n s _ accepts).trans hrun, ht⟩

/-- Settles O45: the failure of write `k` is an outcome of the request's micro-operations, and the block runs to it. -/
theorem failureIsPreciseAtABusWrite : Obligations.FailureIsPreciseAtABusWrite := by
  intro s k i rest hs hk ha hi
  rw [← requestSeq_writeCount s.cfg s.bl] at hk
  have served := served_fail s.cfg hk i rest
  rw [← ha, infoPort_of_lt hi] at served
  obtain ⟨n, t, hrun, h⟩ := completes_of_ready hs served
  exact ⟨n, t, hrun, h.trace, h.responses, h.resp, h.bus, h.busy, h.seq,
    (congrArg Setting.bl h.setting).trans (blAfter_eq_backlightAfter _ _), h.answers, h.macroRest,
    congrArg Setting.plan h.setting⟩

end Sys2Proof.Machine
end

section
/-! What the host macros expand into and what they do to the session's tracked fields (R130 to R144). -/

namespace Sys2Proof.Machine

open Sys2Proof.Says

/-! ### Request words as numbers -/

/-- A request on the host's list is the word of its row's number and its argument (R50, R51). -/
theorem req_eq_word (i : Instr) : req i = word (256 * i.code.toNat + i.argByte.toNat) := by
  have harg := i.argByte.isLt
  rw [req, word, HostItem.request.injEq, ← BitVec.toNat_inj, encode, mkWord, BitVec.toNat_append, BitVec.toNat_ofNat,
    ← Nat.shiftLeft_add_eq_or_of_lt harg, Nat.shiftLeft_eq]
  omega

theorem req_dat (b : Byte) : req (.dat b) = word (0x200 + b.toNat) := req_eq_word (.dat b)

theorem req_ddaddr (a : BitVec 7) : req (.ddaddr a) = word (0xA00 + a.toNat) := by
  rw [req_eq_word, Instr.argByte, BitVec.toNat_setWidth_of_le (by omega)]
  rfl

theorem req_disp : ∀ d cu b : Bool,
    req (.disp d cu b) = word (0x600 + 4 * d.toNat + 2 * cu.toNat + b.toNat) := by decide

theorem req_cgaddr (a : BitVec 6) : req (.cgaddr a) = word (0x900 + a.toNat) := by
  rw [req_eq_word, Instr.argByte, BitVec.toNat_setWidth_of_le (by omega)]
  rfl

/-! ### Addresses and characters -/

theorem clampRow_of_lt {h : HostConfig} {row : Nat} (hr : row < min h.rows 4) : clampRow h row = row := if_pos hr

theorem clampRow_of_le {h : HostConfig} {row : Nat} (hr : min h.rows 4 ≤ row) :
    clampRow h row = min h.rows 4 - 1 := if_neg (Nat.not_lt.2 hr)

theorem clampRow_lt_four (h : HostConfig) (row : Nat) : clampRow h row < 4 := by
  rcases Nat.lt_or_ge row (min h.rows 4) with hr | hr
  · rw [clampRow_of_lt hr]
    omega
  · rw [clampRow_of_le hr]
    omega

/-- The four rows that exist have the offsets of R131's table. -/
theorem rowOffset_eq_getD (h : HostConfig) {r : Nat} (hr : r < 4) :
    rowOffset h r = [0x00, 0x40, h.cols, 0x40 + h.cols].getD r 0 := by
  interval_cases r <;> rfl

theorem ddramAddress_eq_address (h : HostConfig) (row col : Nat) : ddramAddress h row col = address h row col := by
  rw [ddramAddress, rowOffset_eq_getD h (clampRow_lt_four h row)]
  rfl

/-- The set-address command of the text macros; seven bits of the sum are left (log entry 9). -/
theorem req_addressRequest (h : HostConfig) (row col : Nat) :
    req (addressRequest (ddramAddress h row col)) = word (0xA00 + address h row col % 128) := by
  rw [addressRequest, req_ddaddr, BitVec.toNat_ofNat, ddramAddress_eq_address]

/-- The first entry of a table under a key, found by a search or by a lookup. -/
theorem map_snd_find?_eq_lookup (table : List (Nat × Byte)) (k : Nat) :
    (table.find? fun e => e.1 == k).map Prod.snd = table.lookup k := by
  induction table with
  | nil => rfl
  | cons e rest ih =>
    rw [List.lookup_cons, List.find?_cons, BEq.comm]
    cases k == e.1
    · exact ih
    · rfl

theorem toNat_remap (h : HostConfig) (ch : Char) : (remap h ch).toNat = code h ch := by
  rw [code, ← map_snd_find?_eq_lookup, remap]
  cases h.remapTable.find? fun e => e.1 == ch.toNat
  · exact BitVec.toNat_ofNat _ _
  · rfl

theorem req_dat_remap (h : HostConfig) (ch : Char) : req (.dat (remap h ch)) = word (0x200 + code h ch) := by
  rw [req_dat, toNat_remap]

/-! ### The expansions -/

/-- Settles O50: the words by computation, Blinking's for both values of its flag; the waits are those of well-formed
parameters. -/
theorem fixedMacrosExpand : Obligations.FixedMacrosExpand := by
  intro c h hc
  obtain ⟨-, -, -, -, -, -, -, -, hhome, hcursor⟩ := c.wellFormed_source hc
  rw [← hhome, ← hcursor]
  simp only [Macro.expand, cursorRequest, req_disp]
  cases h.blinkWithCursor <;> exact ⟨rfl, rfl, rfl, rfl, rfl, rfl, rfl, rfl, rfl, rfl, rfl⟩

/-- Settles O51: the address word and the word of each character, one rule for all four macros. -/
theorem textMacrosExpand : Obligations.TextMacrosExpand := by
  intro c h row col text ch
  simp only [Macro.expand, textItems, req_addressRequest, req_dat_remap, and_self]

/-- A slot masked to three bits and shifted by three is a CGRAM address of six bits (R136). -/
theorem slotAddress_toNat (slot : Nat) : (BitVec.ofNat 6 ((slot &&& 0x7) <<< 3)).toNat = 8 * (slot % 8) := by
  have hmask : slot &&& 0x7 = slot % 8 := Nat.and_two_pow_sub_one_eq_mod slot 3
  rw [BitVec.toNat_ofNat, hmask, Nat.shiftLeft_eq]
  omega

/-- Settles O52: the slot's address by the mask of three bits, the pattern bytes as they are. -/
theorem defcharMasksTheSlot : Obligations.DefcharMasksTheSlot := by
  intro c h s slot p0 p1 p2 p3 p4 p5 p6 p7
  refine ⟨?_, rfl⟩
  simp only [Macro.expand, req_cgaddr, slotAddress_toNat, req_dat]

/-- Settles O53: the row by the two sides of the clamp; every other field as the operation writes it. -/
theorem trackedPosition : Obligations.TrackedPosition := fun _ _ _ _ _ _ _ _ _ =>
  ⟨rfl, clampRow_of_lt, clampRow_of_le, rfl, rfl, rfl, rfl, rfl, rfl, rfl, rfl, rfl, rfl⟩

/-! ### The acts -/

theorem map_toItem_map_item (xs : List HostItem) : (xs.map HostAct.item).map HostAct.toItem = xs := by
  rw [List.map_map]
  exact List.map_id xs

/-- Settles O55: DISPLAY's act stands for its one request; the acts of all others are their items. -/
theorem actsAreTheExpansion : Obligations.ActsAreTheExpansion := fun c h m => by
  cases m with
  | display on => rfl
  | _ => exact map_toItem_map_item _

end Sys2Proof.Machine
end

section
/-! The host's duties over the host macros (R171, R172, R176, R177): after INIT and any macros the duties are kept and
no wait is owed, so that what follows is judged from there. -/

namespace Sys2Proof.Machine

open Sys2Proof.Says

/-! ### The requests of a list of acts -/

theorem decode_encode (i : Instr) : decode (encode i) = i := decodeOfEncode i (by cases i <;> rfl)

@[simp] theorem requestOf_req (i : Instr) : requestOf (.item (req i)) = some i := congrArg some (decode_encode i)

@[simp] theorem requestOf_wait (t : Nat) : requestOf (.item (.wait t)) = none := rfl

@[simp] theorem requestOf_displayOnOff (on : Bool) : requestOf (.displayOnOff on) = some (.disp on false false) := rfl

theorem requestsOf_append (xs ys : List HostAct) : requestsOf (xs ++ ys) = requestsOf xs ++ requestsOf ys :=
  List.filterMap_append

/-- The request is neither a raw command byte nor a function set; INIT and the host macros send only such requests. -/
def neitherCmdNorFunc : Instr → Bool
  | .cmd _ => false
  | .func _ _ _ => false
  | _ => true

theorem ne_cmd_of_neitherCmdNorFunc {i : Instr} (hi : neitherCmdNorFunc i = true) (b : Byte) : i ≠ .cmd b := by
  rintro rfl
  cases hi

theorem neitherCmdNorFunc_of_mem_acts (c : Config) (h : HostConfig) (m : Macro) :
    ∀ i ∈ requestsOf (m.acts c h), neitherCmdNorFunc i = true := by
  cases m with
  | cursor mode => cases mode <;> simp [Macro.acts, Macro.expand, requestsOf, cursorRequest, neitherCmdNorFunc]
  | _ => simp [Macro.acts, Macro.expand, requestsOf, textItems, addressRequest, neitherCmdNorFunc]

/-! ### INIT first, and never eight bits -/

theorem initFirst_of_init (acts : List HostAct) : initFirst (.item (req .init) :: acts) = true := by
  rw [initFirst, requestsOf, List.filterMap_cons_some (requestOf_req .init), List.filter_cons_of_pos (by rfl)]
  rfl

theorem neverEightBit_append (c : Config) (xs ys : List HostAct) :
    neverEightBit c (xs ++ ys) = (neverEightBit c xs && neverEightBit c ys) := by
  rw [neverEightBit, requestsOf_append, List.all_append, ← neverEightBit, ← neverEightBit]

section
variable {c : Config} (hd : distinctCommands c)
include hd

theorem neverEightBit_of_neitherCmdNorFunc {acts : List HostAct}
    (h : ∀ i ∈ requestsOf acts, neitherCmdNorFunc i = true) : neverEightBit c acts = true := by
  rw [neverEightBit, List.all_eq_true]
  intro i hi
  split
  · rfl
  · next b hb =>
    simp only [List.all_eq_true, bne_iff_ne]
    rintro n - f - rfl
    obtain ⟨-, -, hfunc, -⟩ := hd i (ne_cmd_of_neitherCmdNorFunc (h i hi))
    obtain ⟨n', f', rfl⟩ := hfunc n f hb
    cases h _ hi

/-! ### What one request leaves owed -/

variable {i : Instr} (hi : ∀ b, i ≠ .cmd b)
include hi

theorem isClear_iff : isClear c i = true ↔ i = .clr := by
  obtain ⟨hclr, -, -, -⟩ := hd i hi
  rw [isClear, beq_iff_eq]
  exact ⟨hclr, fun h => h ▸ rfl⟩

theorem isHome_iff : isHome c i = true ↔ i = .home := by
  obtain ⟨-, hhome, -, -⟩ := hd i hi
  rw [isHome, beq_iff_eq]
  exact ⟨hhome, fun h => h ▸ rfl⟩

theorem isDisplayControl_iff : isDisplayControl c i = true ↔ ∃ d cu b, i = .disp d cu b := by
  obtain ⟨-, -, -, hdisp⟩ := hd i hi
  rw [isDisplayControl]
  constructor
  · split
    · simp
    · next x hx =>
      simp only [List.any_eq_true, beq_iff_eq]
      rintro ⟨d, -, cu, -, b, -, rfl⟩
      exact hdisp d cu b hx
  · rintro ⟨d, cu, b, rfl⟩
    simp only [commandByte, List.any_eq_true, beq_iff_eq]
    exact ⟨d, by simp, cu, by simp, b, by simp, rfl⟩

end

/-- The wait that a request asks for when it is no raw command byte (R176, R177). -/
def waitOwed (c : Config) : Instr → Nat
  | .clr => c.tHomeClear
  | .home => c.tHomeClear
  | .disp _ _ _ => c.tCursorMode
  | _ => 0

theorem changesCursor_req (c : Config) (i : Instr) : changesCursor c (.item (req i)) = isDisplayControl c i :=
  congrArg (isDisplayControl c) (decode_encode i)

theorem owedAfter_wait_of_sends {c : Config} (hd : distinctCommands c) {i : Instr} (hi : neitherCmdNorFunc i = true)
    (hs : sendsToController i = true) (o : Owed) : (owedAfter c o (.item (req i)) i).wait = waitOwed c i := by
  have hcmd := ne_cmd_of_neitherCmdNorFunc hi
  simp only [owedAfter, hs, changesCursor_req, Bool.or_eq_true, isClear_iff hd hcmd, isHome_iff hd hcmd,
    isDisplayControl_iff hd hcmd]
  cases i <;> simp [waitOwed]

theorem owedAfter_wait_of_silent {c : Config} {i : Instr} (hs : sendsToController i = false) (o : Owed) (a : HostAct) :
    (owedAfter c o a i).wait = o.wait := by
  simp [owedAfter, hs]

theorem waitsKeptFrom_req (c : Config) (o : Owed) (i : Instr) (rest : List HostAct) :
    waitsKeptFrom c o (.item (req i) :: rest) =
      (mayBeSent c o i && waitsKeptFrom c (owedAfter c o (.item (req i)) i) rest) := by
  rw [req, waitsKeptFrom, decode_encode]

/-- A data request may be sent when no wait is owed; it is never the home after a clear. -/
theorem mayBeSent_dat (c : Config) (o : Owed) (b : Byte) : mayBeSent c o (.dat b) = (o.wait == 0) := by
  simp [mayBeSent, sendsToController, isHome, commandByte]

theorem mayBeSent_of_nothing_owed {c : Config} {o : Owed} (ho : o.wait = 0) (i : Instr) : mayBeSent c o i = true := by
  simp [mayBeSent, ho]

/-! ### Acts that leave nothing owed -/

/-- Begun when no wait is owed, the acts keep the waits, and no wait is owed after them. -/
def LeavesNothingOwed (c : Config) (acts : List HostAct) : Prop :=
  ∀ o : Owed, o.wait = 0 →
    ∃ o' : Owed, o'.wait = 0 ∧ ∀ rest, waitsKeptFrom c o (acts ++ rest) = waitsKeptFrom c o' rest

theorem LeavesNothingOwed.nil (c : Config) : LeavesNothingOwed c [] := fun o ho => ⟨o, ho, fun _ => rfl⟩

theorem LeavesNothingOwed.append {c : Config} {xs ys : List HostAct} (hx : LeavesNothingOwed c xs)
    (hy : LeavesNothingOwed c ys) : LeavesNothingOwed c (xs ++ ys) := fun o ho => by
  obtain ⟨o₁, ho₁, hx⟩ := hx o ho
  obtain ⟨o₂, ho₂, hy⟩ := hy o₁ ho₁
  exact ⟨o₂, ho₂, fun rest => by rw [List.append_assoc, hx, hy]⟩

theorem LeavesNothingOwed.flatMap {α : Type} {c : Config} {f : α → List HostAct} {xs : List α}
    (h : ∀ x ∈ xs, LeavesNothingOwed c (f x)) : LeavesNothingOwed c (xs.flatMap f) := by
  induction xs with
  | nil => exact .nil c
  | cons x xs ih =>
    rw [List.flatMap_cons]
    exact (h x List.mem_cons_self).append (ih fun y hy => h y (List.mem_cons_of_mem x hy))

section
variable {c : Config} (hd : distinctCommands c)
include hd

theorem leavesNothingOwed_request {i : Instr} (hi : neitherCmdNorFunc i = true) (hw : waitOwed c i = 0) :
    LeavesNothingOwed c [.item (req i)] := fun o ho => by
  refine ⟨owedAfter c o (.item (req i)) i, ?_, fun rest => ?_⟩
  · cases hs : sendsToController i
    · exact (owedAfter_wait_of_silent hs o _).trans ho
    · exact (owedAfter_wait_of_sends hd hi hs o).trans hw
  · rw [List.singleton_append, waitsKeptFrom_req, mayBeSent_of_nothing_owed ho, Bool.true_and]

/-- A request followed by the wait it asks for. -/
theorem leavesNothingOwed_request_wait {i : Instr} (hi : neitherCmdNorFunc i = true) (hs : sendsToController i = true)
    {t : Nat} (ht : waitOwed c i ≤ t) : LeavesNothingOwed c [.item (req i), .item (.wait t)] := fun o ho => by
  refine ⟨{ owedAfter c o (.item (req i)) i with wait := waitOwed c i - t }, Nat.sub_eq_zero_of_le ht, fun rest => ?_⟩
  rw [List.cons_append, List.singleton_append, waitsKeptFrom_req, mayBeSent_of_nothing_owed ho, Bool.true_and,
    waitsKeptFrom, owedAfter_wait_of_sends hd hi hs]

/-- The home directly after a clear is sent while the clear's wait is owed: one wait serves both (R176). -/
theorem leavesNothingOwed_clear :
    LeavesNothingOwed c [.item (req .clr), .item (req .home), .item (.wait c.tHomeClear)] := fun o ho => by
  have home : mayBeSent c (owedAfter c o (.item (req .clr)) .clr) .home = true := by
    simp [mayBeSent, owedAfter, isClear, isHome, commandByte]
  refine ⟨{ owedAfter c (owedAfter c o (.item (req .clr)) .clr) (.item (req .home)) .home with wait := 0 }, rfl,
    fun rest => ?_⟩
  simp only [List.cons_append, List.nil_append, waitsKeptFrom_req, mayBeSent_of_nothing_owed ho, home, Bool.true_and,
    waitsKeptFrom, owedAfter_wait_of_sends hd (i := .home) rfl rfl, waitOwed, Nat.sub_self]

/-- No wait is asked for after DISPLAY on or off (R177, N18). -/
theorem leavesNothingOwed_display (on : Bool) : LeavesNothingOwed c [.displayOnOff on] := fun o ho => by
  refine ⟨owedAfter c o (.displayOnOff on) (.disp on false false), ?_, fun rest => ?_⟩
  · simp [owedAfter, sendsToController, changesCursor, isClear_iff hd (i := .disp on false false) nofun,
      isHome_iff hd (i := .disp on false false) nofun]
  · rw [List.singleton_append, waitsKeptFrom, mayBeSent_of_nothing_owed ho, Bool.true_and]

/-- Requests that ask for no wait, one after another. -/
theorem leavesNothingOwed_requests {α : Type} {f : α → Instr} (hi : ∀ x, neitherCmdNorFunc (f x) = true)
    (hw : ∀ x, waitOwed c (f x) = 0) (xs : List α) :
    LeavesNothingOwed c ((xs.map fun x => req (f x)).map .item) := by
  rw [List.map_map, ← List.flatMap_pure_eq_map]
  exact .flatMap fun x _ => leavesNothingOwed_request hd (hi x) (hw x)

/-- R132 to R144: every session operation waits for what it asks. -/
theorem leavesNothingOwed_acts (h : HostConfig) (m : Macro) : LeavesNothingOwed c (m.acts c h) := by
  have text (xs : List Char) : LeavesNothingOwed c ((textItems h xs).map .item) :=
    leavesNothingOwed_requests hd (fun _ => rfl) (fun _ => rfl) xs
  have goto (sum : Nat) : LeavesNothingOwed c [.item (req (addressRequest sum))] :=
    leavesNothingOwed_request hd rfl rfl
  cases m with
  | homew => exact leavesNothingOwed_request_wait hd rfl rfl (Nat.le_refl _)
  | clear => exact leavesNothingOwed_clear hd
  | goto row col => exact goto _
  | puts xs row col => exact (goto _).append (text xs)
  | putsc xs => exact text xs
  | putc ch row col => exact (goto _).append (text [ch])
  | defchar slot p0 p1 p2 p3 p4 p5 p6 p7 =>
    exact (leavesNothingOwed_request hd rfl rfl).append
      (leavesNothingOwed_requests hd (f := .dat) (fun _ => rfl) (fun _ => rfl) [p0, p1, p2, p3, p4, p5, p6, p7])
  | cursor mode =>
    cases mode <;> exact leavesNothingOwed_request_wait hd rfl rfl (Nat.le_refl _)
  | display on => exact leavesNothingOwed_display hd on
  | movl | movr | backlight => exact leavesNothingOwed_request hd rfl rfl

/-! ### What follows INIT and any macros -/

/-- After INIT and any macros the duties ask no more than that what follows sets no eight bits and keeps its own
waits. -/
theorem hostObeys_after_macros (h : HostConfig) (ms : List Macro) : ∃ o : Owed, o.wait = 0 ∧ ∀ rest,
    hostObeys c (.item (req .init) :: ms.flatMap (Macro.acts c h) ++ rest) =
      (neverEightBit c rest && waitsKeptFrom c o rest) := by
  have owed : LeavesNothingOwed c (.item (req .init) :: ms.flatMap (Macro.acts c h)) :=
    (leavesNothingOwed_request hd rfl rfl).append (.flatMap fun m _ => leavesNothingOwed_acts hd h m)
  have fourBit : neverEightBit c (.item (req .init) :: ms.flatMap (Macro.acts c h)) = true := by
    apply neverEightBit_of_neitherCmdNorFunc hd
    rw [requestsOf, List.filterMap_cons_some (requestOf_req .init), List.filterMap_flatMap]
    simp only [List.mem_cons, List.mem_flatMap]
    rintro i (rfl | ⟨m, -, hm⟩)
    · rfl
    · exact neitherCmdNorFunc_of_mem_acts c h m i hm
  obtain ⟨o, ho, kept⟩ := owed ⟨0, false⟩ rfl
  refine ⟨o, ho, fun rest => ?_⟩
  rw [hostObeys, waitsKept, kept, neverEightBit_append, fourBit, Bool.true_and, List.cons_append, initFirst_of_init,
    Bool.true_and]

end

/-- Settles O56: nothing is owed before the DISP, its own wait is owed after it, and the data request is sent when that
wait is over. -/
theorem cursorChangeOwesItsWait : Obligations.CursorChangeOwesItsWait := by
  intro c h ms d cu b ch t hc hd before
  obtain ⟨-, -, -, -, -, -, -, -, -, hcursor⟩ := c.wellFormed_source hc
  obtain ⟨o, ho, obeys⟩ := hostObeys_after_macros hd h ms
  have owed := owedAfter_wait_of_sends hd (i := .disp d cu b) rfl rfl o
  rw [obeys, obeys]
  constructor
  · simp [waitsKeptFrom_req, mayBeSent_dat, owed, waitOwed, hcursor]
  · rw [neverEightBit_of_neitherCmdNorFunc hd (by simp [requestsOf, neitherCmdNorFunc])]
    simp [waitsKeptFrom_req, waitsKeptFrom, mayBeSent_of_nothing_owed ho, mayBeSent_dat, owed, waitOwed,
      ← Nat.sub_eq_zero_iff_le, beq_eq_decide]

end Sys2Proof.Machine
end

section
/-! Taking the exception: the whole next state of a failed bus write (R150, R152, R130). -/

namespace Sys2Proof.Machine

open Sys2Proof.Says

/-- Information that fits the wires comes back unchanged in the response. -/
theorem State.transportFailure_of_lt (s : State) (v : Byte) {i : Nat} (hi : i < 2 ^ s.cfg.infoW) :
    s.transportFailure v i =
      ({ s with bus := none, seq := [], trace := s.trace ++ [.writeFailed v] } : State).respond .transportFail i := by
  rw [State.transportFailure, infoPort_of_lt hi]

/-- Settles O28: the look takes the failure off the script, the block answers with its information, the host stops. -/
theorem transportFailureEndsTheRequest : Obligations.TransportFailureEndsTheRequest := by
  intro s v i rest h ha hi
  rw [step_awaiting h, State.lookAtBus_fail (s.beginStep.peekAnswer_cons _ _ ha), s.beginStep.takeAnswer_cons _ _ ha,
    State.transportFailure_of_lt]
  · rfl
  · exact hi

end Sys2Proof.Machine
end

section
/-! The hazards (R171, R172, R176, R177, R180, R183): what a write that fails in the middle of a byte leaves on the
backpack, the duties kept by INIT and any macros, and the rounding of a delay to cycles. -/

namespace Sys2Proof.Machine

open Sys2Proof.Says

/-! ### The bytes that reach the device -/

/-- The writes before the failed one reach the device, and the failed one if it is `reached`; the gaps between them put
nothing there. -/
theorem reachedBytes_failTrace (c : Config) (reached : Bool) {ops : List MicroOp} {k : Nat}
    (hk : k < (opsBytes ops).length) :
    reachedBytes [reached] ((failTrace c ops k).map .block) = (opsBytes ops).take (k + reached.toNat) := by
  induction ops generalizing k with
  | nil => cases hk
  | cons m ops ih =>
    cases m with
    | delay t => exact ih hk
    | write v =>
      cases k with
      | zero => cases reached <;> rfl
      | succ k =>
        rw [Nat.succ_add, opsBytes, List.take_succ_cons, ← ih (Nat.lt_of_succ_lt_succ hk)]
        rfl

/-! ### A byte cut short -/

/-- In each half of a byte the second write raises Enable and the third lowers it (R72, R90): after `j` of the six
writes Enable is high exactly between those two, and `j / 3` nibbles are taken. -/
theorem enable_and_strobes_take_byteOps {c : Config} (h : c.wellFormed = true) (rs bl : Bool) (b : Byte) {before : Byte}
    (hlow : enableHigh c before = false) {j : Nat} (hj : j ≤ 6) :
    enableHigh c (latchAfter before ((opsBytes (byteOps c rs bl b)).take j)) = decide (j % 3 = 2) ∧
      (strobes c before ((opsBytes (byteOps c rs bl b)).take j)).length = j / 3 := by
  rw [byteOps_bytes, nibbleOps_bytes_wellFormed c h, nibbleOps_bytes_wellFormed c h]
  interval_cases j <;> simp [latchAfter, strobes, hlow, enableHigh_busByte h]

/-- R180's table, by the number of bytes that reached the device. -/
theorem table_eq_of_bytes_reached : ∀ reached : Bool, ∀ k < 6,
    enableAfterFailure reached k = decide ((k + reached.toNat) % 3 = 2) ∧
      takenAfterFailure reached k = (k + reached.toNat) / 3 := by decide

/-- Settles O46: the block runs to the failure of write `k`; by then `k` bytes have reached the device, or `k + 1`. -/
theorem whatAFailureLeavesBehind : Obligations.WhatAFailureLeavesBehind := by
  intro s b before k i rest hs hi hk ha hlow
  have ⟨hwf, _⟩ := hs
  have hseq : requestSeq s.cfg s.bl (decode s.reqWord) = byteOps s.cfg false s.bl b := by
    rw [hi, byteOps_eq_byteStrobes hwf]
    rfl
  have hlen : (opsBytes (byteOps s.cfg false s.bl b)).length = 6 := rfl
  have served := served_fail s.cfg (hlen ▸ hk) i rest
  rw [← ha, ← hseq] at served
  obtain ⟨n, t, hrun, ht⟩ := completes_of_ready hs served
  refine ⟨n, t, _, hrun, ht.busy, ht.responses, ht.trace, fun reached => ?_⟩
  obtain ⟨enable, taken⟩ := table_eq_of_bytes_reached reached k hk
  have hj : k + reached.toNat ≤ 6 := Nat.add_le_add (Nat.le_of_lt_succ hk) reached.toNat_le
  rw [hseq, reachedBytes_failTrace s.cfg reached (hlen ▸ hk), enable, taken]
  exact enable_and_strobes_take_byteOps hwf false s.bl b hlow hj

/-! ### The host's duties -/

/-- Settles O54: nothing follows INIT and the macros, and of nothing the duties ask nothing. -/
theorem macrosKeepTheHostsDuties : Obligations.MacrosKeepTheHostsDuties := by
  intro c h ms hd
  obtain ⟨o, -, obeys⟩ := hostObeys_after_macros hd h ms
  rw [← List.append_nil (_ :: _), obeys]
  rfl

/-! ### Clocked builds -/

/-- Settles O49: adding 999999 before dividing by 1000000 rounds up. -/
theorem cyclesRoundUp : Obligations.CyclesRoundUp := by
  intro c t n
  rw [delayCycles]
  omega

end Sys2Proof.Machine
end
